-- ==== Sys2Proof/Word.lean ====
section
/-!
DEFINITION. The words the part's messages, records and clock are made of.
-/
namespace Sys2Proof

/-- One byte of a request, a reply or a lane-line frame. -/
abbrev Byte := BitVec 8

/-- A credential number, 32 bits (R1; 0 and 4,294,967,295 are no credentials). -/
abbrev Cred := BitVec 32

/-- A lobby time in whole seconds (R161). -/
abbrev Secs := BitVec 32

/-- A window serial: it follows 255 with 0 (R40). -/
abbrev Serial := BitVec 8

end Sys2Proof
end

