-- ==== Sys2Proof/Syntax.lean ====
section
/-!
DEFINITION. The commands: one constructor of `Instr` for each row of spec/opcode_table.json, with the
types their operands take.
A request row names the port whose request it is: the request's fields are those the port unit read
from the bytes written (R187, R193, R194), which stand in the state until the owning block takes them.
A walk-step row names the entry visited, for the manual does not give the walk's order (R1).
A lane-line reply row carries the reply as received, which R141 judges.
-/
namespace Sys2Proof

/-- The eight lanes, 0 to 7 (00_scope.md, Conventions). -/
inductive Lane where
  | l0 | l1 | l2 | l3 | l4 | l5 | l6 | l7
deriving DecidableEq, Repr

/-- The three ports of the Foyer Bus, roles 0 to 2 (00_scope.md). -/
inductive Port where
  | security | reception | dispatch
deriving DecidableEq, Repr

/-- The three module slots of a lane line: 1, 2 and 3 (00_scope.md, R139). -/
inductive Slot where
  | outer | inner | drive
deriving DecidableEq, Repr

/-- The two reader heads of a lane: the outer serves entry, the inner exit (00_scope.md). -/
inductive Reader where
  | outer | inner
deriving DecidableEq, Repr

/-- A window tag: the lane and the per-lane serial (R40). -/
structure Tag where
  lane : Lane
  serial : Serial
deriving DecidableEq, Repr

/-- The nine notices, in the order of their bits (R176, R193). -/
inductive Notice where
  | replyReady | journalPending | callsPending | alarm | lane | bank | loss | stall | clock
deriving DecidableEq, Repr

/-- The blocks that hand records to the journal unit (R169): records of one keep their order (R170). -/
inductive Source where
  | decision
  | sequencer (l : Lane)
  | line (l : Lane)
  | escort | dispatch | occupancy | safety | table | clock
deriving DecidableEq, Repr

/-- Which frames the part sends in the step meet another sender on the line (R140): bit n stands for
position n + 1 of the cycle (R144). -/
abbrev Collisions := BitVec 6

/-- One byte of a reply with the gap before it, in microseconds (R141). -/
structure TimedByte where
  gap : Nat
  byte : Byte
deriving DecidableEq, Repr

/-- A lane-line reply as received (R141, R196). -/
structure RawReply where
  /-- Microseconds from the end of the part's CHECK byte to the reply's BREAK. -/
  delay : Nat
  /-- Length of the BREAK in bit times. -/
  breakBits : Nat
  /-- The bit rate measured from SYNC, in bit/s. -/
  rate : Nat
  /-- Every byte has a high stop bit. -/
  stops : Bool
  /-- SYNC, the header, the data and the CHECK. -/
  bytes : List TimedByte
deriving DecidableEq, Repr

/-- The commands of the block: the rows of spec/opcode_table.json, in the table's order. -/
inductive Instr where
  /-- POWER_ON (R25): Power is applied, and every block takes its power-on values. -/
  | powerOn (straps : BitVec 5) (high : Bool)
  /-- WARM_RESET (R81): A low level on RESET_N causes a warm reset: windows, claims, queues, the ring and the ports are cleared, settings are kept and unmasked lanes re-enumerate. -/
  | warmReset
  /-- START_MARK (R183): FDA falls while FCK is high; the bus-seen state goes from IDLE to BUSY, or the mark is ignored in IGNORING. -/
  | startMark
  /-- REPEATED_START (R183): A start mark seen while BUSY ends the current transaction as a stop mark would, then begins a new one. -/
  | repeatedStart
  /-- STOP_MARK (R186): FDA rises while FCK is high; the current transaction ends and the bus-seen state becomes IDLE, including from IGNORING. -/
  | stopMark
  /-- ADDRESS_BYTE (R185): The first byte of a transaction is answered by port address, direction and port state, starting RECEIVING, a reply read, a hold or a broadcast write. -/
  | addressByte (b : Byte)
  /-- REQUEST_DATA_BYTE (R186): A data byte of a write is placed in the request or broadcast buffer and acknowledged, or refused after the 40th byte and the request marked overlong. -/
  | requestDataByte (b : Byte)
  /-- REPLY_BYTE_SENT (R188): The master clocks one reply byte, which is sent from the slot, as NO_REPLY or NOT_READY, or as filler. -/
  | replyByteSent (ack : Bool)
  /-- REPLY_TO_SLOT (R187): An owning block's reply reaches the port's slot; the port goes REPLY_READY and any held read is released. -/
  | replyToSlot (p : Port)
  /-- HOLD_LIMIT_EXPIRY (R189): After 25 ms of holding FCK for an IN_PROGRESS port, the part releases FCK and sends NOT_READY. -/
  | holdLimitExpiry
  /-- STALL_LIMIT_EXPIRY (R190): No FCK edge comes within the stall limit; the transaction is abandoned, STALL is set and the interface goes IGNORING. -/
  | stallLimitExpiry
  /-- TIME_BEACON (R165): A broadcast write forming a beacon is taken at the clock and is ignored, applied or rejected by source, flag and step. -/
  | timeBeacon
  /-- INSERT_ENTRY (R11): Adds one Permit Table entry after the rights, form, duplicate, capacity, quota and sponsor checks. -/
  | insertEntry (p : Port)
  /-- MODIFY_ENTRY (R12): Changes the named fields of one entry, moves sponsor refs, may end a WAIT and may withdraw the live window. -/
  | modifyEntry (p : Port)
  /-- REVOKE_ENTRY (R14): Removes an entry with refs 0 in one operation, or starts a forced revoke walk. -/
  | revokeEntry (p : Port)
  /-- QUERY_ENTRY (R16): Returns every field of one entry. -/
  | queryEntry (p : Port)
  /-- SET_SIDE (R17): Sets the side of one entry. -/
  | setSide (p : Port)
  /-- PURGE (R18): Removes every entry matching a class and issuer selector by a two-pass walk. -/
  | purge (p : Port)
  /-- SET_QUOTA (R19): Sets the visitor quota. -/
  | setQuota (p : Port)
  /-- TABLE_STATUS (R19): Reports entries used, the RECEPTION count, the quota and the walker state. -/
  | tableStatus (p : Port)
  /-- DESK_PASS (R45): Asks for a granted passage at a named lane without a reader, holding a place or making a reservation. -/
  | deskPass (p : Port)
  /-- SET_LANE (R51): Changes one lane's settings in one event. -/
  | setLane (p : Port)
  /-- SET_BANK_MODE (R52): Sets the bank mode, withdrawing windows of directions no longer enabled. -/
  | setBankMode (p : Port)
  /-- SET_LANE_MASK (R53): Sets the lane mask; newly masked lanes abort their windows and go MASKED, and unmasked lanes enumerate. -/
  | setLaneMask (p : Port)
  /-- ISOLATE_LANE (R77): Takes a lane out of service without touching its leaves, aborting its windows. -/
  | isolateLane (p : Port)
  /-- RESUME_LANE (R77): Returns an ISOLATED lane to ENUMERATING. -/
  | resumeLane (p : Port)
  /-- RESTART_LANE (R78): Makes a lane enumerate again from the start, aborting its windows. -/
  | restartLane (p : Port)
  /-- ALARM_RESET (R69): Acknowledges an alarmed, empty lane, and returns it to READY if it is awaiting reset. -/
  | alarmReset (p : Port)
  /-- READ_LANE_COUNTERS (R76): Reports and clears a lane's six counters. -/
  | readLaneCounters (p : Port)
  /-- LANE_STATUS (R79): Reports a lane's state, settings, slots, physical picture, windows and reservation. -/
  | laneStatus (p : Port)
  /-- SET_ESCORT (R95): Sets the escort interval and applies it at once to every record. -/
  | setEscort (p : Port)
  /-- ESCORT_STATUS (R96): Reports the escort interval, the record count and up to four records. -/
  | escortStatus (p : Port)
  /-- TAKE_CALLS (R102): Removes up to four records from the front of the call queue, and taken CALLs become TAKEN. -/
  | takeCalls (p : Port)
  /-- ASSIGN (R104): Attaches a car to a live window whose call was taken, or is answered STALE. -/
  | assign (p : Port)
  /-- DECLINE (R105): Marks a taken call DECLINED, or is answered STALE. -/
  | decline (p : Port)
  /-- SET_DISPATCH (R98): Sets dispatch, hold-for-car and the call timeout. -/
  | setDispatch (p : Port)
  /-- DISPATCH_STATUS (R109): Reports the dispatch settings, the queue, the call-state counts and the loss counter, which is cleared at the DISPATCH port. -/
  | dispatchStatus (p : Port)
  /-- SET_COUNTS (R114): Sets the three head counts, clears counts-uncertain and evaluates every group. -/
  | setCounts (p : Port)
  /-- COUNTS (R115): Reports the head counts, the total and the counts-uncertain flag. -/
  | counts (p : Port)
  /-- SET_GOVERNOR (R121): Writes one governor group's fields and/or the nominal pace interval and evaluates the group. -/
  | setGovernor (p : Port)
  /-- GOVERNOR_STATUS (R122): Reports the governor groups, the active action and the counts. -/
  | governorStatus (p : Port)
  /-- RESTORE (R132): Permits a restore waiting for a request and tells FREE lanes to begin it. -/
  | restore (p : Port)
  /-- SET_EGRESS (R132): Sets restore needs request. -/
  | setEgress (p : Port)
  /-- LOCKDOWN (R135): Turns the lockdown flag on, sending lockdown orders and telling the escort unit, or turns it off. -/
  | lockdown (p : Port)
  /-- SAFETY_STATUS (R137): Reports the bank safety unit's state. -/
  | safetyStatus (p : Port)
  /-- SET_LINE (R159): Sets or reports the qualified inference setting. -/
  | setLine (p : Port)
  /-- SET_CLOCK (R163): Sets the lobby clock's seconds value and flag SET, and restarts its place within the second. -/
  | setClock (p : Port)
  /-- SET_CLOCK_SOURCE (R164): Sets the clock source to SECURITY_ONLY or BEACON. -/
  | setClockSource (p : Port)
  /-- READ_CLOCK (R166): Reports the clock, and clears the disagree counter at the SECURITY port. -/
  | readClock (p : Port)
  /-- READ_JOURNAL (R173): Returns up to four of the oldest records owed to the port and removes the port from their owed sets. -/
  | readJournal (p : Port)
  /-- SUBSCRIBE (R174): Sets the port's journal subscription set. -/
  | subscribe (p : Port)
  /-- JOURNAL_STATUS (R175): Reports the port's subscription, unread and lost counts, and clears the lost count. -/
  | journalStatus (p : Port)
  /-- READ_NOTICES (R179): Reports the port's notices and masks and clears the latched notices reported set. -/
  | readNotices (p : Port)
  /-- SET_NOTICE_MASK (R180): Sets the port's notice masks and master mask. -/
  | setNoticeMask (p : Port)
  /-- SET_BUS (R190): Sets the stall limit exponent k. -/
  | setBus (p : Port)
  /-- BANK_RESET (R191): Causes a warm reset from the SECURITY port, with no reply. -/
  | bankReset (p : Port) (straps : BitVec 5)
  /-- EGRESS_REQ_CHANGE (R126): The EGRESS_REQ level comes to differ from, or returns to, the taken level, starting or stopping the debounce timer. -/
  | egressReqChange (high : Bool)
  /-- EGRESS_DEBOUNCE_EXPIRY (R126): After 50 ms of difference, the input level becomes the taken level. -/
  | egressDebounceExpiry
  /-- OVERTAKE_ORDER (R128): A lane takes the overtake order, going to FREE with its windows ended OVERTAKEN, or taking it without effect. -/
  | overtakeOrder (l : Lane)
  /-- LANE_STATE_REPORT (R125): The bank safety unit takes a lane's report of a state change, an empty list or an order taken, and tests for EGRESS and for the end of restore. -/
  | laneStateReport (l : Lane)
  /-- AMNESTY (R22): One table operation makes every entry's side UNKNOWN. -/
  | amnesty
  /-- AMNESTY_DONE (R134): The bank safety unit takes the report that the amnesty was done, and the state becomes NORMAL unless a new call came. -/
  | amnestyDone
  /-- FREE_RESTORE_CLEAR_EXPIRY (R133): A restoring FREE lane's clear timer runs out and the lane goes to READY. -/
  | freeRestoreClearExpiry (l : Lane)
  /-- LOCKDOWN_ORDER (R135): A lane takes the lockdown order, withdrawing its ENTRY windows that are not yet in TRANSIT. -/
  | lockdownOrder (l : Lane)
  /-- ESCORT_LOCKDOWN (R91): The escort unit ends every WAIT as WITHDRAWN and removes every credit on lockdown. -/
  | escortLockdown
  /-- ESCORT_EGRESS_CLEAR (R92): The escort unit ends every WAIT as OVERTAKEN and removes every credit when the egress state becomes EGRESS. -/
  | escortEgressClear
  /-- CLOCK_ADVANCE (R161): 1,000 ms of time base pass and the lobby clock adds one second. -/
  | clockAdvance
  /-- SWEEP_STEP (R21): One walker step of the sweep removes one expired RECEPTION entry that holds no claim and has no refs, or leaves it. -/
  | sweepStep (c : Cred)
  /-- FORCED_REVOKE_START (R15): The walker's first step re-checks the revoke and marks the entry in removal, or removes it at once. -/
  | forcedRevokeStart
  /-- FORCED_REVOKE_STEP (R15): One walker step clears the sponsor of, and suspends, one referring entry. -/
  | forcedRevokeStep (c : Cred)
  /-- FORCED_REVOKE_END (R15): The last step removes the revoked entry and replies OK. -/
  | forcedRevokeEnd
  /-- PURGE_FIRST_PASS_STEP (R18): One step removes a matching entry with refs 0, or marks one with refs above 0 in removal. -/
  | purgeFirstPassStep (c : Cred)
  /-- PURGE_SECOND_PASS_STEP (R18): One step handles an entry naming an entry in removal as a referring entry. -/
  | purgeSecondPassStep (c : Cred)
  /-- PURGE_FINAL_STEP (R18): The final step removes every entry in removal, journals PURGED and replies. -/
  | purgeFinalStep
  /-- LANE_CYCLE (R144): Every 20 ms a lane line cycle starts, sending the pending LEAF_CMD and SHOWs and beginning the slot positions. -/
  | laneCycle (l : Lane) (coll : Collisions)
  /-- NO_REPLY (R141): No BREAK begins within 2 ms of a POLL, PROFILE_QUERY or probe, counting a miss or an unanswered try. -/
  | noReply (l : Lane) (coll : Collisions)
  /-- BAD_REPLY (R141): A lane-line reply that fails the tests of R141 is discarded as a line error, or refuses the module RATE in a query round. -/
  | badReply (l : Lane) (r : RawReply) (coll : Collisions)
  /-- JABBER_REPLY (R142): A fourteenth byte after a reply header puts the slot in JABBER with a 1 s lockout. -/
  | jabberReply (l : Lane) (coll : Collisions)
  /-- STRAY (R143): A low level the part did not drive outside send and listen is received, discarded and counted as a line error. -/
  | stray (l : Lane)
  /-- IDLE_REPLY (R147): A good IDLE reply from a reader resets its miss count, or serves as the answer to a legacy probe. -/
  | idleReply (l : Lane) (r : RawReply) (coll : Collisions)
  /-- PRESENTATION_REPLY (R147): A good PRESENTATION is discarded for a bad credential, refused for media, or handed to the decision unit. -/
  | presentationReply (l : Lane) (r : RawReply) (coll : Collisions)
  /-- SENSE_REPLY (R148): A good SENSE reply from the leaf drive is handed to the lane sequencer and confirms a pending LEAF_CMD. -/
  | senseReply (l : Lane) (r : RawReply) (coll : Collisions)
  /-- PROFILE_REPLY (R151): A good PROFILE in a query round agrees or refuses the module against the lane's allowed settings. -/
  | profileReply (l : Lane) (r : RawReply) (coll : Collisions)
  /-- RETRY_EXPIRY (R155): The retry timer of a LOST, REFUSED or SILENT slot runs out and a new query round begins. -/
  | retryExpiry (l : Lane) (x : Slot)
  /-- LOCKOUT_EXPIRY (R142): A JABBER slot's lockout ends and it goes to QUERYING with a new round. -/
  | lockoutExpiry (l : Lane) (x : Slot)
  /-- CROSS_IN (R61): A body enters the lane; the oldest OPEN window of that direction goes to TRANSIT, or the lane enters ALARM for TAILGATE or INTRUSION. -/
  | crossIn (l : Lane)
  /-- CROSS_LEAF (R63): Sets past leaf on the oldest TRANSIT window of the direction. -/
  | crossLeaf (l : Lane)
  /-- CROSS_OUT (R63): Ends the oldest TRANSIT window of the direction PASSED, or journals UNMATCHED_EXIT. -/
  | crossOut (l : Lane)
  /-- RETREAT (R64): Returns the newest TRANSIT window of the direction to OPEN, or ends it, or journals UNMATCHED_RETREAT. -/
  | retreat (l : Lane)
  /-- PAIR (R62): Two bodies in one gap raise TAILGATE unless two authorised windows of the direction are in OPEN or TRANSIT. -/
  | pair (l : Lane)
  /-- OBSTRUCT_ON (R67): Sets the obstruction on and starts its 5 s timer. -/
  | obstructOn (l : Lane)
  /-- OBSTRUCT_OFF (R67): Sets the obstruction off and stops its timer. -/
  | obstructOff (l : Lane)
  /-- SENSE_STATE_UPDATE (R60): The lane replaces its stored leaf position and zones with the reported ones. -/
  | senseStateUpdate (l : Lane)
  /-- OPEN_TIMER_EXPIRY (R65): An OPEN window's open timer runs out and it ends UNUSED. -/
  | openTimerExpiry (t : Tag)
  /-- TRANSIT_TIMER_EXPIRY (R66): A TRANSIT window's transit timer runs out; it ends STALLED and the lane enters ALARM for LOITER. -/
  | transitTimerExpiry (t : Tag)
  /-- OBSTRUCTION_TIMER_EXPIRY (R67): The obstruction lasts 5 s and the lane enters ALARM for OBSTRUCTED. -/
  | obstructionTimerExpiry (l : Lane)
  /-- CLEAR_TIMER_EXPIRY (R69): An alarmed lane's clear timer runs out and it goes to READY or awaits reset. -/
  | clearTimerExpiry (l : Lane)
  /-- PACE_INTERVAL_EXPIRY (R58): The pace interval passes since the lane's pace mark and the PACED window goes OPEN. -/
  | paceIntervalExpiry (l : Lane)
  /-- DISPLAY_HOLD_EXPIRY (R73): A display's 600 ms hold runs out and a waiting indication is shown. -/
  | displayHoldExpiry (l : Lane) (rd : Reader)
  /-- RESERVATION_HOLD_EXPIRY (R47): A desk-pass reservation waits 30 s without a place and is answered TIMEOUT. -/
  | reservationHoldExpiry (l : Lane)
  /-- PRESENTATION_LOOKUP (R32): The arbiter takes a presentation lookup, which runs checks 1 again and 3 to 15 and gives the verdict. -/
  | presentationLookup
  /-- DESK_PASS_LOOKUP (R45): The desk pass's lookup, taken in the third class, decides GRANT or DENIED and replies to the port. -/
  | deskPassLookup (p : Port)
  /-- ESCORT_RELEASE (R87): The table takes a RELEASING WAIT's release, which appends an ESCORT_RELEASE window or refuses by its three tests. -/
  | escortRelease
  /-- ESCORT_CLAIM_RELEASE (R7): Clears a visitor's WAIT claim after its WAIT record ended. -/
  | escortClaimRelease
  /-- PASSAGE_POSTING (R23): The table takes a window's posting, clearing the claim and, for PASSED, setting side, uses and last passage. -/
  | passagePosting
  /-- WINDOW_REMOVAL (R71): The posting result reaches the lane, which removes the window and hands its end to the occupancy, escort, dispatch and journal units. -/
  | windowRemoval (l : Lane)
  /-- WINDOW_WITHDRAWAL (R13): A lane takes a withdrawal naming a tag and ends that window WITHDRAWN if it is not yet in TRANSIT. -/
  | windowWithdrawal (l : Lane)
  /-- OCCUPANCY_PASSAGE (R112): The occupancy unit counts a PASSED window and evaluates the groups whose source changed. -/
  | occupancyPassage (l : Lane)
  /-- SPONSOR_PASSAGE (R84): The escort unit takes a PASSED window, making or renewing a credit and releasing WAITING visitors of a sponsor. -/
  | sponsorPassage (l : Lane)
  /-- LANE_RELEASE_NOTICE (R85): A lane takes the notice of a new RELEASE_PENDING WAIT and offers a free place. -/
  | laneReleaseNotice (l : Lane)
  /-- ESCORT_WAIT_EXPIRY (R83): A WAIT outlives the escort interval and ends ESCORT_TIMEOUT. -/
  | escortWaitExpiry (c : Cred)
  /-- CREDIT_EXPIRY (R83): A SPONSOR_CREDIT outlives the escort interval and is removed. -/
  | creditExpiry (c : Cred)
  /-- ESCORT_END_MESSAGE (R90): The escort unit takes a table message ending a WAIT or credit and removes the record. -/
  | escortEndMessage
  /-- CALL_TIMER_EXPIRY (R103): A call timer runs out; a POSTED call becomes EXPIRED and a TAKEN call becomes TIMED_OUT. -/
  | callTimerExpiry (t : Tag)
  /-- DISPATCH_INDICATION (R100): After a call-state change, CAR(n) or SEE_PANEL is requested at the lane as a separate event. -/
  | dispatchIndication (l : Lane)
  /-- HOLD_FOR_CAR_REPORT (R106): A lane takes a change of hold-for-car; when it goes OFF, windows in ASSIGNING leave it. -/
  | holdForCarReport (l : Lane)
  /-- ACTIVE_ACTION_UPDATE (R120): A lane takes a new active action and tests its PACED window again. -/
  | activeActionUpdate (l : Lane)
  /-- JOURNAL_APPEND (R170): The journal unit takes a record, forms its owed set and adds it to the ring or discards it. -/
  | journalAppend (src : Source)
  /-- NOTICE_LEVEL_REPORT (R176): A notice unit takes a report of a level notice's state and works out the ALERT line. -/
  | noticeLevelReport (p : Port) (n : Notice)
  /-- LATCHED_NOTICE_SET (R177): A notice unit takes an event setting a latched notice and works out the ALERT line. -/
  | latchedNoticeSet (p : Port) (n : Notice)
  /-- LEAVE_WARM_RESET (R138): RESET_N returns high and the part leaves the warm reset: the straps are read, lane cycles start, the egress input is compared afresh, and a pending overtake becomes EGRESS or a RESTORING state tests the end of restore. -/
  | leaveWarmReset (straps : BitVec 5)
deriving DecidableEq, Repr

end Sys2Proof
end

