-- ==== Sys2Proof/Config.lean ====
section
/-!
DEFINITION. What is fixed for every part: the table "Principal quantities" of spec/00_scope.md.
The manual leaves no value of an operation open, so there is no free value here: the one order it
leaves open, a walk's (R1), is an operand of the walk-step commands.
-/
namespace Sys2Proof.Config

/-- Permit Table capacity (R1). -/
def tableCapacity : Nat := 8192
/-- Largest visitor quota (R4). -/
def quotaMax : Nat := 2048
/-- Visitor quota at power-on (R25). -/
def quotaDefault : Nat := 1024
/-- Windows per lane (R31). -/
def placesPerLane : Nat := 2
/-- Records the escort list holds (R82). -/
def escortCapacity : Nat := 16
/-- Records the call queue holds (R99). -/
def callCapacity : Nat := 32
/-- Records the journal ring holds (R171). -/
def ringCapacity : Nat := 512
/-- Records one READ_JOURNAL or TAKE_CALLS gives (R102, R173). -/
def recordsPerRead : Nat := 4
/-- Bound of the small counters (R76, R108, R165, R171). -/
def counterMax : Nat := 255
/-- Bound of each head count (R111). -/
def countMax : Nat := 65535
/-- Obstruction limit, ms (R67). -/
def obstructionLimit : Nat := 5000
/-- Display hold, ms (R73). -/
def displayHold : Nat := 600
/-- Desk-pass reservation hold, ms (R47). -/
def reservationHold : Nat := 30000
/-- Egress debounce, ms (R126). -/
def egressDebounce : Nat := 50
/-- Foyer Bus hold limit, ms (R189). -/
def holdLimit : Nat := 25
/-- Lane cycle, ms (R144). -/
def laneCycle : Nat := 20
/-- Module reply deadline, ms (R141). -/
def replyDeadline : Nat := 2
/-- Retry interval and jabber lockout, ms (R142, R155). -/
def retryInterval : Nat := 1000
/-- Request and broadcast buffer, bytes (R185, R186). -/
def requestBytes : Nat := 40
/-- Lane-line bit rate, bit/s (R140). -/
def bitRate : Nat := 115200
/-- Beacon step limit, seconds (R165). -/
def beaconStep : Nat := 5

end Sys2Proof.Config
end

