-- ==== Sys2Proof/Machine/State.lean ====
section
/-!
DEFINITION. The state of the part: every register, list, queue, timer and mode that the manual gives it, as
plain data, the reasons a step can stop, and the state right after power-on.
Times of the time base are in milliseconds (log entry 3). A timer that runs is held as the time at which it runs out.
-/
namespace Sys2Proof.Machine

/-! ## Collections of fixed size -/

/-- One value for each lane. -/
structure PerLane (α : Type) where
  l0 : α
  l1 : α
  l2 : α
  l3 : α
  l4 : α
  l5 : α
  l6 : α
  l7 : α
deriving DecidableEq, Repr

/-- One value for each port. -/
structure PerPort (α : Type) where
  security : α
  reception : α
  dispatch : α
deriving DecidableEq, Repr

/-! ## Named values (each list in the order of the rule that defines it, R193) -/

/-- Direction of a passage (00_scope.md). -/
inductive Direction where
  | entry | exit
deriving DecidableEq, Repr

/-- Classes of a Permit Table entry (R1). -/
inductive Class where
  | staff | contractor | visitor
deriving DecidableEq, Repr

/-- Issuers of a Permit Table entry (R3). -/
inductive Issuer where
  | security | reception
deriving DecidableEq, Repr

/-- Directions an entry permits (R1). -/
inductive Directions where
  | entry | exit | both
deriving DecidableEq, Repr

/-- Anti-passback rules (R1, R38). -/
inductive PassbackRule where
  | strict | soft | none
deriving DecidableEq, Repr

/-- The side on which the table believes a holder to be (R1). -/
inductive Side where
  | outside | inside | unknown
deriving DecidableEq, Repr

/-- Media a credential can be carried by (R1). -/
inductive Medium where
  | card | phone | code
deriving DecidableEq, Repr

/-- A set of media: bit n stands for the nth medium (R193). -/
abbrev MediaSet := BitVec 3
/-- A set of classes: bit n stands for the nth class (R193). -/
abbrev ClassSet := BitVec 3
/-- A set of issuers: bit n stands for the nth issuer (R193). -/
abbrev IssuerSet := BitVec 2
/-- A set of leaf profiles: bit n stands for the nth profile (R193). -/
abbrev LeafSet := BitVec 3
/-- A set of lanes: bit n stands for lane n (R193). -/
abbrev LaneSet := BitVec 8
/-- A set of journal kinds: bit n stands for the nth kind (R169, R193). -/
abbrev KindSet := BitVec 10

/-- A lobby time as it is stored: the value, or the UNSET marker (R161). -/
inductive Stamp where
  | unset
  | time (v : Secs)
deriving DecidableEq, Repr

/-- What an entry's live claim names (R5). -/
inductive Claim where
  | window (t : Tag)
  | wait
deriving DecidableEq, Repr

/-- The last passage of a holder (R1, R23). -/
structure LastPassage where
  time : Stamp
  lane : Lane
  dir : Direction
deriving DecidableEq, Repr

/-- One record of the Permit Table (R1). -/
structure Entry where
  cred : Cred
  cls : Class
  issuer : Issuer
  suspended : Bool
  responder : Bool
  media : MediaSet
  lanes : LaneSet
  directions : Directions
  passback : PassbackRule
  validFrom : Option Secs
  validUntil : Option Secs
  uses : Option Nat
  sponsor : Option Cred
  floor : Option Nat
  side : Side
  refs : Nat
  claim : Option Claim
  last : Option LastPassage
  /-- Marked in removal by a forced revoke or a purge (R15, R18). -/
  inRemoval : Bool
deriving DecidableEq, Repr

/-- A tag of a window whose entry was removed while the window lived (R5). -/
structure Departed where
  tag : Tag
  cred : Cred
deriving DecidableEq, Repr

/-- The stages of a purge (R18). -/
inductive PurgeStage where
  | first | second | final
deriving DecidableEq, Repr

/-- A walk of the walker (R20), with the entries it has yet to visit in its present pass. -/
inductive Walk where
  /-- R18; `count` entries were removed so far. -/
  | purge (classes : ClassSet) (issuers : IssuerSet) (stage : PurgeStage) (todo : List Cred) (count : Nat)
  /-- R15; `started` after the start step; `handled` referring entries so far; `sent` a withdrawal was sent. -/
  | forcedRevoke (c : Cred) (withdraw : Bool) (started : Bool) (todo : List Cred) (handled : Nat) (sent : Bool)
  /-- R21; `count` entries were removed so far. -/
  | sweep (todo : List Cred) (count : Nat)
deriving DecidableEq, Repr

/-- A walk that waits for the walker (R20). -/
inductive WalkRequest where
  | purge (classes : ClassSet) (issuers : IssuerSet)
  | forcedRevoke (c : Cred) (withdraw : Bool)
deriving DecidableEq, Repr

/-- The Permit Table unit (R1, R4, R5, R20). -/
structure TableUnit where
  /-- Sorted by credential, one entry a credential: the table keeps no order that software sees (R1). -/
  entries : List Entry
  receptionCount : Nat
  quota : Nat
  departed : List Departed
  walk : Option Walk
  waiting : Option WalkRequest
deriving DecidableEq, Repr

/-- Outcomes of a window (R70), in the order of R195. -/
inductive WinOutcome where
  | passed | unused | withdrawn | overtaken | stalled | faulted | aborted
deriving DecidableEq, Repr

/-- A passage posting (R23). -/
structure Posting where
  tag : Tag
  cred : Cred
  dir : Direction
  outcome : WinOutcome
deriving DecidableEq, Repr

/-- Operations of the arbiter's first class (R10). -/
inductive FirstOp where
  | posting (x : Posting)
  | claimRelease (visitor : Cred)
deriving DecidableEq, Repr

/-- Operations of the arbiter's second class (R10). An escort release holds a place at `l` (R86). -/
inductive SecondOp where
  | lookup (l : Lane)
  | release (visitor : Cred) (l : Lane)
deriving DecidableEq, Repr

/-- A desk pass that holds a place and waits for its lookup (R45, R47). -/
structure DeskLookup where
  cred : Cred
  lane : Lane
  dir : Direction
  /-- It took its place from a reservation (R47). -/
  reserved : Bool
deriving DecidableEq, Repr

/-- The circle of claimants of the third class (R10). -/
inductive Claimant where
  | security | reception | walker | safety
deriving DecidableEq, Repr

/-- The arbiter's waiting operations and round-robin place (R10). A port's table request waits at its port. -/
structure Arbiter where
  first : List FirstOp
  second : List SecondOp
  desk : PerPort (Option DeskLookup)
  amnesty : Bool
  next : Claimant
deriving DecidableEq, Repr

/-! ## Lanes -/

/-- Lane states (R48). -/
inductive LaneState where
  | masked | enumerating | ready | serving | alarm | free | isolated | fault
deriving DecidableEq, Repr

/-- Lane modes (R51). -/
inductive Mode where
  | secured | entryOnly | exitOnly | closed
deriving DecidableEq, Repr

/-- Mode sources (R51). -/
inductive ModeSource where
  | bank | own
deriving DecidableEq, Repr

/-- Alarm reasons (R68), in the order of R195. -/
inductive AlarmReason where
  | tailgate | intrusion | loiter | obstructed
deriving DecidableEq, Repr

/-- Window states (R54). -/
inductive WinState where
  | queued | assigning | paced | opened | transit | closing
deriving DecidableEq, Repr

/-- Window origins (R54). -/
inductive Origin where
  | presentation | escortRelease | deskPass
deriving DecidableEq, Repr

/-- Call states (R54). -/
inductive CallState where
  | none | posted | taken | timedOut | answered | declined | expired | notPosted
deriving DecidableEq, Repr

/-- A passage window (R54), with its timers (R54, R100). -/
structure Window where
  tag : Tag
  cred : Cred
  cls : Class
  dir : Direction
  origin : Origin
  state : WinState
  created : Stamp
  retreats : Nat
  pastLeaf : Bool
  passback : Bool
  call : CallState
  car : Option Nat
  outcome : Option WinOutcome
  openDue : Option Nat
  transitDue : Option Nat
  callDue : Option Nat
  /-- The floor of the entry as the creating operation found it (R101): the detail of R108. -/
  floor : Option Nat
deriving DecidableEq, Repr

/-- A desk-pass reservation (R46). -/
structure Reservation where
  port : Port
  cred : Cred
  dir : Direction
  made : Nat
deriving DecidableEq, Repr

/-- Leaf positions (R55). -/
inductive LeafPosition where
  | closed | opening | openIn | openOut | closing | held
deriving DecidableEq, Repr

/-- Leaf commands (R55). -/
inductive LeafCmd where
  | close | openIn | openOut | hold | holdOpen
deriving DecidableEq, Repr

/-- The three zones, each true for OCCUPIED (R55). -/
structure Zones where
  outer : Bool
  leaf : Bool
  inner : Bool
deriving DecidableEq, Repr

/-- Indications of a display (R42, R75, R94, R196). -/
inductive Indication where
  | blank | go | stop | wait | waitSponsor | seeDesk | car (n : Nat) | seePanel | free
deriving DecidableEq, Repr

/-- A reader's display (R73). `asked` is the last indication requested in the present event; it is taken as the
event ends, so it is absent between events. -/
structure Display where
  shown : Option Indication
  holdDue : Option Nat
  waiting : Option Indication
  asked : Option Indication
deriving DecidableEq, Repr

/-- The six counters of a lane (R76), each 0 to 255. -/
structure Counters where
  denial : Nat
  tailgate : Nat
  intrusion : Nat
  loiter : Nat
  obstruct : Nat
  lineError : Nat
deriving DecidableEq, Repr

/-- A presentation being decided at its lane (R28). -/
structure Presentation where
  dir : Direction
  cred : Cred
  medium : Medium
deriving DecidableEq, Repr

/-- The governor's active action (R119): the group that gives it, and what the action uses. -/
inductive ActiveAction where
  | none
  | pace (group : Nat) (interval : Nat)
  | bar (group : Nat) (classes : ClassSet)
  | closeEntry (group : Nat)
deriving DecidableEq, Repr

/-- A lane's settings (R51); the times are in seconds. -/
structure LaneSettings where
  mode : Mode
  source : ModeSource
  openTime : Nat
  transitLimit : Nat
  clearTime : Nat
  alarmLatch : Bool
  allowedLeaf : LeafSet
  allowedMedia : MediaSet
deriving DecidableEq, Repr

/-- One lane sequencer, with its lane's decision slot (R28, R48, R51, R54, R55, R69, R73, R76). -/
structure LaneUnit where
  state : LaneState
  alarmReason : Option AlarmReason
  acknowledged : Bool
  awaitingReset : Bool
  settings : LaneSettings
  windows : List Window
  reservation : Option Reservation
  nextSerial : Serial
  leafPos : LeafPosition
  zones : Zones
  obstruction : Bool
  obstructDue : Option Nat
  travel : Option Direction
  paceMark : Option Nat
  wanted : Option LeafCmd
  clearDue : Option Nat
  /-- Told to begin its restore (R133). -/
  restoring : Bool
  outer : Display
  inner : Display
  counters : Counters
  decision : Option Presentation
  /-- The active action the lane last took (R120). -/
  action : ActiveAction
deriving DecidableEq, Repr

/-! ## Lane lines -/

/-- Slot statuses (R139). -/
inductive SlotStatus where
  | off | querying | agreed | lost | jabber | refused | silent
deriving DecidableEq, Repr

/-- Leaf profiles in their ranking (R152). -/
inductive LeafProfile where
  | overlapPair | singlePair | singleBasic
deriving DecidableEq, Repr

/-- An agreed profile (R139). -/
inductive Profile where
  | leaf (p : LeafProfile)
  | reader (media : MediaSet) (display : Bool)
deriving DecidableEq, Repr

/-- Refusal reasons (R139). -/
inductive RefusalReason where
  | rate | mismatch
deriving DecidableEq, Repr

/-- How the query round before the present one ended, for a REFUSED or SILENT slot that retries (R156). -/
inductive RoundResult where
  | silent
  | refused (r : RefusalReason)
deriving DecidableEq, Repr

/-- A timer that isolation can stop where it stands (R158). -/
inductive Timer where
  | stopped
  | running (due : Nat)
  | paused (left : Nat)
deriving DecidableEq, Repr

/-- A slot record (R139). -/
structure SlotRec where
  status : SlotStatus
  profile : Option Profile
  inferred : Bool
  refusal : Option RefusalReason
  miss : Nat
  tries : Nat
  probeSent : Bool
  /-- A query round runs (R150; a LOST slot keeps its status while its round runs, R155). -/
  round : Bool
  prior : Option RoundResult
  retry : Timer
  lockout : Timer
deriving DecidableEq, Repr

/-- The frames of the part that are answered (R140, R150). -/
inductive SentKind where
  | poll | query | probe
deriving DecidableEq, Repr

/-- The frame whose reply is awaited (R141). The reply to a frame of a query round that a RESTART_LANE ended is `void`: it
gives the new round nothing (log entry 14). -/
structure Await where
  slot : Slot
  sent : SentKind
  since : Nat
  void : Bool
deriving DecidableEq, Repr

/-- What the part puts on a lane line (R140): a BREAK, a low level of at least 13 bit times, whose length is not held (log
entry 42); or a byte, sent at 115,200 bit/s as a start bit, 8 data bits and a stop bit. -/
inductive LineMark where
  | brk
  | byte (b : Byte)
deriving DecidableEq, Repr

/-- One lane line controller (R139, R144, R145, R146). -/
structure LineUnit where
  outer : SlotRec
  inner : SlotRec
  drive : SlotRec
  pendingCmd : Option LeafCmd
  showOuter : Option Indication
  showInner : Option Indication
  nextCycle : Nat
  await : Option Await
  /-- The frames sent in the present cycle, each from its BREAK to its CHECK (R140, R196). -/
  frames : List (List LineMark)
deriving DecidableEq, Repr

/-! ## Escort, dispatch, occupancy, safety, clock -/

/-- Phases of a WAIT (R82). -/
inductive WaitPhase where
  | waiting | releasePending | releasing
deriving DecidableEq, Repr

/-- A record of the escort list (R82). -/
inductive EscortRec where
  | wait (visitor sponsor : Cred) (l : Lane) (started : Nat) (phase : WaitPhase)
  | credit (sponsor : Cred) (l : Lane) (started : Nat)
deriving DecidableEq, Repr

/-- The escort unit (R82, R83); the interval is in seconds. -/
structure EscortUnit where
  list : List EscortRec
  interval : Nat
deriving DecidableEq, Repr

/-- A record of the call queue (R99). -/
inductive CallRec where
  | call (t : Tag) (cred : Cred) (floor : Nat) (posted : Stamp)
  | cancel (t : Tag)
deriving DecidableEq, Repr

/-- The dispatch unit (R98, R99, R108); the call timeout is in seconds. -/
structure DispatchUnit where
  queue : List CallRec
  loss : Nat
  dispatch : Bool
  holdForCar : Bool
  timeout : Nat
deriving DecidableEq, Repr

/-- Sources of a governor group (R116). -/
inductive GovSource where
  | total | staff | contractor | visitor
deriving DecidableEq, Repr

/-- Actions of a governor group (R116). -/
inductive GovAction where
  | pace | bar | closeEntry
deriving DecidableEq, Repr

/-- Pace modes of a governor group (R117). -/
inductive PaceMode where
  | eighths | divide
deriving DecidableEq, Repr

/-- A governor group (R116). -/
structure Group where
  enabled : Bool
  source : GovSource
  high : Nat
  low : Nat
  action : GovAction
  mode : PaceMode
  n : Nat
  barred : ClassSet
  active : Bool
deriving DecidableEq, Repr

/-- The four governor groups G0 to G3 (R116). -/
structure Groups where
  g0 : Group
  g1 : Group
  g2 : Group
  g3 : Group
deriving DecidableEq, Repr

/-- The three head counts (R111). -/
structure HeadCounts where
  staff : Nat
  contractor : Nat
  visitor : Nat
deriving DecidableEq, Repr

/-- The occupancy and governor unit (R111, R116, R117). -/
structure OccupancyUnit where
  counts : HeadCounts
  uncertain : Bool
  nominal : Nat
  groups : Groups
deriving DecidableEq, Repr

/-- Egress states (R125). -/
inductive EgressState where
  | normal | egress | restoring
deriving DecidableEq, Repr

/-- The bank safety unit (R125). -/
structure SafetyUnit where
  /-- The taken level of EGRESS_REQ, true for CALLED. -/
  called : Bool
  debounceDue : Option Nat
  egress : EgressState
  overtake : Bool
  releaseWaiting : Bool
  restorePermitted : Bool
  needsRequest : Bool
  lockdown : Bool
  /-- The claimed amnesty stands for the present restore: no call was taken since the claim (R134). -/
  claimStands : Bool
deriving DecidableEq, Repr

/-- Clock sources (R164). -/
inductive ClockSource where
  | securityOnly | beacon
deriving DecidableEq, Repr

/-- The lobby clock (R161, R164, R165). `mark` is the time base value from which the next second is measured. -/
structure ClockUnit where
  secs : Secs
  set : Bool
  mark : Nat
  source : ClockSource
  disagree : Nat
deriving DecidableEq, Repr

/-! ## Journal and notices -/

/-- Verdicts (R193). -/
inductive VerdictKind where
  | grant | awaitSponsor | busy | repeated | free | deny
deriving DecidableEq, Repr

/-- DENY reasons (R193). -/
inductive DenyReason where
  | laneDirection | unknownCredential | inUse | suspended | media | laneNotPermitted | direction | clockUnset | notYet
  | expired | usedUp | lockdown | governor | passback | escortBusy
deriving DecidableEq, Repr

/-- Codes of ESCORT records (R93). -/
inductive EscortCode where
  | creditMade | creditRenewed | creditExpired | creditRemoved | creditsCleared | releasePending | released
  | escortTimeout | withdrawn | overtaken | deskPass
deriving DecidableEq, Repr

/-- Codes of DISPATCH records (R108). -/
inductive DispatchCode where
  | callLost | cancelLost | expired | timedOut | assigned | declined | stale
deriving DecidableEq, Repr

/-- Codes of LANE records (R195). -/
inductive LaneCode where
  | state (s : LaneState)
  | unmatchedExit | unmatchedRetreat | moduleJabber | moduleLost | moduleAgreed | moduleRefused | moduleSilent
  | reservationEnded
deriving DecidableEq, Repr

/-- Codes of BANK records (R195). -/
inductive BankCode where
  | egressCall | egress | restoring | restored | lockdown | governor | countsUncertain | countsSet
deriving DecidableEq, Repr

/-- Codes of TABLE records (R195). -/
inductive TableCode where
  | revoked | purged | swept | sweepSkipped
deriving DecidableEq, Repr

/-- Codes of CLOCK records (R195). -/
inductive ClockCode where
  | wrapped | clockSet | beaconSet | beaconStep | beaconRejected
deriving DecidableEq, Repr

/-- A record's code, which also fixes its kind (R169). -/
inductive JournalCode where
  | verdict (v : VerdictKind)
  | passage
  | window (o : WinOutcome)
  | alarm (r : AlarmReason)
  | escort (c : EscortCode)
  | dispatch (c : DispatchCode)
  | lane (c : LaneCode)
  | bank (c : BankCode)
  | table (c : TableCode)
  | clock (c : ClockCode)
deriving DecidableEq, Repr

/-- The marks of a detail (R195). -/
structure Marks where
  passback : Bool := false
  entryGone : Bool := false
  listFull : Bool := false
  inferred : Bool := false
  late : Bool := false
  deskPass : Bool := false
deriving DecidableEq, Repr

/-- A record's detail in its four forms (R195). -/
inductive Detail where
  | none
  | cred (c : Cred)
  | clock (v : Secs) (formerUnset : Bool)
  | bank (items : List Byte)
  | items (m : Marks) (bytes : List Byte)
deriving DecidableEq, Repr

/-- A journal record (R169); its kind is its code's. -/
structure Record where
  time : Stamp
  code : JournalCode
  lane : Option Lane := none
  tag : Option Tag := none
  cred : Option Cred := none
  cls : Option Class := none
  dir : Option Direction := none
  origin : Option Origin := none
  detail : Detail := .none
deriving DecidableEq, Repr

/-- A record in the ring with its owed set (R171) and its running number. -/
structure RingRec where
  record : Record
  owed : PerPort Bool
  seq : Nat
deriving DecidableEq, Repr

/-- The journal unit (R171, R174). A port's cursor is the running number after the newest record it has read. -/
structure JournalUnit where
  ring : List RingRec
  subs : PerPort KindSet
  lost : PerPort Nat
  cursor : PerPort Nat
  nextSeq : Nat
deriving DecidableEq, Repr

/-- A port's notice unit (R176, R178): bit n of `set` and `masked` is the nth notice; `alert` is true while the
port's ALERT line is held low. -/
structure NoticeUnit where
  set : BitVec 9
  masked : BitVec 9
  master : Bool
  alert : Bool
deriving DecidableEq, Repr

/-! ## Requests as the port unit reads them (R193, R194) -/

/-- The INSERT_ENTRY image: the four attribute bytes and the present fields (R194). -/
structure InsertImage where
  cred : Cred
  a : Byte
  b : Byte
  c : Byte
  d : Byte
  validFrom : Option Secs
  validUntil : Option Secs
  uses : Option Byte
  sponsor : Option Cred
  floor : Option Byte
deriving DecidableEq, Repr

/-- What a modify does to an optional field (R12, R194). -/
inductive Change (α : Type) where
  | keep
  | clear
  | set (v : α)
deriving DecidableEq, Repr

/-- The MODIFY_ENTRY image (R194): `foreign` when any of mask bits 12 to 15 is set. -/
structure ModifyImage where
  cred : Cred
  withdraw : Bool
  foreign : Bool
  cls : Option Byte
  suspended : Option Byte
  responder : Option Byte
  media : Option Byte
  lanes : Option Byte
  directions : Option Byte
  passback : Option Byte
  validFrom : Change Secs
  validUntil : Change Secs
  uses : Change Byte
  sponsor : Change Cred
  floor : Change Byte
deriving DecidableEq, Repr

/-- The settings a SET_LANE names (R51, R193). -/
structure LaneChange where
  mode : Option Byte
  source : Option Byte
  openTime : Option Byte
  transitLimit : Option Byte
  clearTime : Option Byte
  alarmLatch : Option Byte
  allowedLeaf : Option Byte
  allowedMedia : Option Byte
deriving DecidableEq, Repr

/-- The fields a SET_GOVERNOR names (R121, R193). -/
structure GroupChange where
  enabled : Option Byte
  source : Option Byte
  high : Option Nat
  low : Option Nat
  action : Option Byte
  mode : Option Byte
  n : Option Byte
  barred : Option Byte
deriving DecidableEq, Repr

/-- A request whose form fits (R187, R193): the values are as sent, their ranges are the owning block's matter. -/
inductive Request where
  | insertEntry (image : InsertImage)
  | modifyEntry (image : ModifyImage)
  | revokeEntry (c : Cred) (withdraw force : Bool)
  | queryEntry (c : Cred)
  | setSide (c : Cred) (side : Byte)
  | purge (classes issuers : Byte)
  | setQuota (v : Nat)
  | tableStatus
  | deskPass (c : Cred) (lane dir : Byte)
  | setLane (lane : Byte) (change : LaneChange)
  | setBankMode (mode : Byte)
  | setLaneMask (mask : Byte)
  | isolateLane (lane : Byte)
  | resumeLane (lane : Byte)
  | restartLane (lane : Byte)
  | alarmReset (lane : Byte)
  | readLaneCounters (lane : Byte)
  | laneStatus (lane : Byte)
  | setEscort (interval : Nat)
  | escortStatus (position : Byte)
  | takeCalls
  | assign (lane serial car : Byte)
  | decline (lane serial : Byte)
  | setDispatch (dispatch hold timeout : Option Byte)
  | dispatchStatus
  | setCounts (staff contractor visitor : Nat)
  | counts
  | setGovernor (group : Byte) (change : GroupChange) (nominal : Option Nat)
  | governorStatus
  | restore
  | setEgress (v : Byte)
  | lockdown (v : Byte)
  | safetyStatus
  | setLine (v : Option Byte)
  | setClock (v : Secs)
  | setClockSource (source : Byte)
  | readClock
  | readJournal (count : Byte)
  | subscribe (kinds : BitVec 16)
  | journalStatus
  | readNotices
  | setNoticeMask (change values : BitVec 16)
  | setBus (k : Byte)
  | bankReset
deriving DecidableEq, Repr

/-- Reply statuses, numbered from OK at 0 (R187, R193). -/
inductive Status where
  | ok | notReady | noReply | malformed | unknownRequest | rights | badField | noEntry | duplicate | tableFull
  | quotaFull | noSponsor | sponsorFull | sponsorInUse | laneState | laneReserved | laneOccupied | stale | timeout
  | overtaken | denied
deriving DecidableEq, Repr

/-! ## Ports and bus -/

/-- Port states (11_the_foyer_bus_ports.md, 11.3). -/
inductive PortState where
  | idle | receiving | inProgress | replyReady
deriving DecidableEq, Repr

/-- A port unit (R186, R187, R188). `fromReady` remembers that RECEIVING came from REPLY_READY; `handed` is the
request handed on to its block and not yet taken there. -/
structure PortUnit where
  state : PortState
  fromReady : Bool
  buffer : List Byte
  overlong : Bool
  handed : Option Request
  slot : Option (List Byte)
deriving DecidableEq, Repr

/-- What a reply read sends (R188, R189). -/
inductive ReadSource where
  | slot
  | fixed (bytes : List Byte)
deriving DecidableEq, Repr

/-- How far the current transaction is (R183, R185). -/
inductive TxnPhase where
  | address
  | aside
  | write (p : Port)
  | broadcast (bytes : List Byte) (tooLong : Bool)
  | read (p : Port) (src : ReadSource) (sent : Nat)
  | held (p : Port) (since : Nat)
deriving DecidableEq, Repr

/-- The current transaction, with the stall limit it began under, in ms (R190). -/
structure Txn where
  phase : TxnPhase
  addressed : Option Port
  limit : Nat
deriving DecidableEq, Repr

/-- The bus-seen state (R183): BUSY has its transaction. -/
inductive BusSeen where
  | ignoring
  | idle
  | busy (t : Txn)
deriving DecidableEq, Repr

/-- What the part does in an acknowledge slot (R183, R185). -/
inductive Ack where
  | acknowledged | refused | unanswered
deriving DecidableEq, Repr

/-- The Foyer Bus interface (R183, R184, R190). -/
structure BusUnit where
  seen : BusSeen
  base : Nat
  stallK : Nat
  lastEdge : Nat
  lastAck : Option Ack
  lastByte : Option Byte
deriving DecidableEq, Repr

/-! ## Messages handed over and not yet taken -/

/-- A report or a setting on its way to a notice unit (R176, R177). -/
inductive NoticeMsg where
  | level (p : Port) (n : Notice) (v : Bool)
  | latched (p : Port) (n : Notice)
deriving DecidableEq, Repr

/-- A lane's report to the bank safety unit (R125). -/
inductive LaneReport where
  | changed (former new : LaneState)
  | listEmpty
  | orderTaken
deriving DecidableEq, Repr

/-- The side named in a sense event (R60). -/
inductive SenseSide where
  | outside | inside
deriving DecidableEq, Repr

/-- A sense event (R148, R196). -/
inductive SenseEvent where
  | crossIn (s : SenseSide)
  | crossLeaf (d : Direction)
  | crossOut (s : SenseSide)
  | retreat (s : SenseSide)
  | pair (s : SenseSide)
  | obstructOn
  | obstructOff
deriving DecidableEq, Repr

/-- What a SENSE hands to its lane sequencer: its events in order, then the position and zones (R60). -/
inductive SenseItem where
  | event (e : SenseEvent)
  | update (pos : LeafPosition) (zones : Zones)
deriving DecidableEq, Repr

/-- A posting's result on its way to the lane (R23, R24). -/
structure PostingResult where
  tag : Tag
  gone : Bool
  cls : Option Class
  refs : Nat
deriving DecidableEq, Repr

/-- A PASSED window handed to the occupancy unit (R71, R112). -/
structure CountedPassage where
  lane : Lane
  cls : Class
  dir : Direction
deriving DecidableEq, Repr

/-- A PASSED window handed to the escort unit (R71, R84). -/
structure HandedPassage where
  lane : Lane
  cred : Cred
  cls : Class
  dir : Direction
  gone : Bool
  refs : Nat
deriving DecidableEq, Repr

/-- A message of the table that ends an escort record (R9, R12, R15, R90). -/
inductive EscortEnd where
  | wait (visitor : Cred)
  | credit (sponsor : Cred)
deriving DecidableEq, Repr

/-- Messages between blocks that are handed over and not yet taken; each is taken by a row of its own. -/
structure Mail where
  /-- JOURNAL_APPEND takes these (R170). -/
  records : List (Source × Record)
  /-- NOTICE_LEVEL_REPORT and LATCHED_NOTICE_SET take these (R176, R177). -/
  notices : List NoticeMsg
  /-- REPLY_TO_SLOT takes these (R187). -/
  replies : PerPort (Option (List Byte))
  /-- LANE_STATE_REPORT takes these (R125). -/
  reports : List (Lane × LaneReport)
  /-- OVERTAKE_ORDER takes these (R127). -/
  overtakes : List Lane
  /-- LOCKDOWN_ORDER takes these (R135). -/
  lockdowns : List Lane
  /-- WINDOW_WITHDRAWAL takes these (R13). -/
  withdrawals : List Tag
  /-- LANE_RELEASE_NOTICE takes these (R85): the lane and the visitor. -/
  releases : List (Lane × Cred)
  /-- DISPATCH_INDICATION takes these (R100). -/
  indications : List (Tag × Indication)
  /-- HOLD_FOR_CAR_REPORT takes these (R106). -/
  holds : List (Lane × Bool)
  /-- ACTIVE_ACTION_UPDATE takes these (R120). -/
  actions : List (Lane × ActiveAction)
  /-- WINDOW_REMOVAL takes these (R71). -/
  results : List PostingResult
  /-- The sense rows take these (R60). -/
  sense : List (Lane × SenseItem)
  /-- OCCUPANCY_PASSAGE takes these (R112). -/
  passages : List CountedPassage
  /-- SPONSOR_PASSAGE takes these (R84). -/
  sponsors : List HandedPassage
  /-- ESCORT_END_MESSAGE takes these (R90). -/
  escortEnds : List EscortEnd
  /-- ESCORT_LOCKDOWN takes these (R91). -/
  escortLockdowns : Nat
  /-- ESCORT_EGRESS_CLEAR takes these (R92). -/
  escortClears : Nat
  /-- TIME_BEACON takes these (R165). -/
  beacons : List Secs
  /-- AMNESTY_DONE takes these (R134). -/
  amnestyDone : Nat
deriving DecidableEq, Repr

/-! ## The whole state -/

/-- Settings of the whole bank (R52, R53, R159). -/
structure BankUnit where
  mode : Mode
  mask : LaneSet
  qualified : Bool
deriving DecidableEq, Repr

/-- What comes in at the pins beside the rows: the levels that the part reads (R126, R184), and the edges that no row
carries. -/
structure Pins where
  straps : BitVec 5
  egressReq : Bool
  /-- The times at which FCK changes inside a byte (R190): the model's own field, written by the outside alone, since a row
  carries a whole byte or a mark (log entry 40). -/
  edges : List Nat
deriving DecidableEq, Repr

/-- The part and the commands that wait for it. -/
structure State where
  /-- Commands waiting, first in, first out. -/
  pending : List Instr
  /-- The time base, in ms (log entry 3). -/
  time : Nat
  /-- RESET_N is held low (00_scope.md, Resets). -/
  resetHeld : Bool
  pins : Pins
  bank : BankUnit
  table : TableUnit
  arbiter : Arbiter
  lanes : PerLane LaneUnit
  lines : PerLane LineUnit
  escort : EscortUnit
  dispatch : DispatchUnit
  occupancy : OccupancyUnit
  safety : SafetyUnit
  clock : ClockUnit
  journal : JournalUnit
  notices : PerPort NoticeUnit
  ports : PerPort PortUnit
  bus : BusUnit
  mail : Mail
deriving DecidableEq, Repr

/-- Why the part would stop with a fault: no rule of the manual stops it, so there is no reason at all (log entry 1). -/
inductive Fault where
deriving DecidableEq, Repr

/-- Why a command would be refused. -/
inductive Refusal where
  /-- Raised by an arm of `exec` whose command has no meaning yet; safe. No arm raises it now. -/
  | notModelled (mnemonic : String)
deriving DecidableEq, Repr

/-! ## The state right after power-on -/

/-- The same value for every lane. -/
def PerLane.fill {α : Type} (a : α) : PerLane α := ⟨a, a, a, a, a, a, a, a⟩

/-- The same value for every port. -/
def PerPort.fill {α : Type} (a : α) : PerPort α := ⟨a, a, a⟩

/-- R25. -/
def TableUnit.reset : TableUnit := ⟨[], 0, Config.quotaDefault, [], none, none⟩

/-- R25, R44. -/
def Arbiter.reset : Arbiter := ⟨[], [], .fill none, false, .security⟩

/-- R80 (power-on values of R51). -/
def LaneSettings.reset : LaneSettings := ⟨.secured, .bank, 8, 12, 2, false, 7, 7⟩

/-- R80: the display queues are clear. -/
def Display.reset : Display := ⟨none, none, none, none⟩

/-- R80: the six counters are 0. -/
def Counters.reset : Counters := ⟨0, 0, 0, 0, 0, 0⟩

/-- R44, R80, and the physical picture's reset values of R55. -/
def LaneUnit.reset : LaneUnit :=
  { state := .enumerating, alarmReason := none, acknowledged := false, awaitingReset := false, settings := .reset,
    windows := [], reservation := none, nextSerial := 0, leafPos := .closed, zones := ⟨false, false, false⟩,
    obstruction := false, obstructDue := none, travel := none, paceMark := none, wanted := none, clearDue := none,
    restoring := false, outer := .reset, inner := .reset, counters := .reset, decision := none, action := .none }

/-- R160: QUERYING with a new round. -/
def SlotRec.reset : SlotRec :=
  { status := .querying, profile := none, inferred := false, refusal := none, miss := 0, tries := 0,
    probeSent := false, round := true, prior := none, retry := .stopped, lockout := .stopped }

/-- R160. -/
def LineUnit.reset : LineUnit :=
  { outer := .reset, inner := .reset, drive := .reset, pendingCmd := none, showOuter := none, showInner := none,
    nextCycle := 0, await := none, frames := [] }

/-- R97. -/
def EscortUnit.reset : EscortUnit := ⟨[], 60⟩

/-- R110. -/
def DispatchUnit.reset : DispatchUnit := ⟨[], 0, false, false, 3⟩

/-- R116, R123. -/
def Group.reset : Group := ⟨false, .total, 65535, 0, .pace, .eighths, 7, 0, false⟩

/-- R123. -/
def OccupancyUnit.reset : OccupancyUnit := ⟨⟨0, 0, 0⟩, false, 1000, ⟨.reset, .reset, .reset, .reset⟩⟩

/-- R125, R138. -/
def SafetyUnit.reset : SafetyUnit := ⟨false, none, .normal, false, false, false, false, false, false⟩

/-- R168. -/
def ClockUnit.reset : ClockUnit := ⟨0, false, 0, .securityOnly, 0⟩

/-- R181: SECURITY every kind; RECEPTION VERDICT, PASSAGE and ESCORT; DISPATCH PASSAGE and DISPATCH. -/
def JournalUnit.reset : JournalUnit := ⟨[], ⟨0x3FF, 0x013, 0x022⟩, .fill 0, .fill 0, 0⟩

/-- R182. Every port's unit has a mask for CALLS_PENDING, which only DISPATCH can write (R180, log entry 47). -/
def NoticeUnit.reset : NoticeUnit := ⟨0, 0x1FF, true, false⟩

/-- R192. -/
def PortUnit.reset : PortUnit := ⟨.idle, false, [], false, none, none⟩

/-- R192; the base is that of the straps at 0 (R184). -/
def BusUnit.reset : BusUnit := ⟨.ignoring, 2, 5, 0, none, none⟩

/-- No message waits. -/
def Mail.reset : Mail :=
  { records := [], notices := [], replies := .fill none, reports := [], overtakes := [], lockdowns := [],
    withdrawals := [], releases := [], indications := [], holds := [], actions := [], results := [], sense := [],
    passages := [], sponsors := [], escortEnds := [], escortLockdowns := 0, escortClears := 0, beacons := [],
    amnestyDone := 0 }

/-- The part right after power-on (R25, R44, R80, R97, R110, R123, R125, R160, R168, R181, R182, R192), with its
straps and EGRESS_REQ low (log entry 4) and no command waiting. -/
def State.reset : State :=
  { pending := [], time := 0, resetHeld := false, pins := ⟨0, false, []⟩, bank := ⟨.secured, 0, true⟩, table := .reset,
    arbiter := .reset, lanes := .fill .reset, lines := .fill .reset, escort := .reset, dispatch := .reset,
    occupancy := .reset, safety := .reset, clock := .reset, journal := .reset, notices := .fill .reset,
    ports := .fill .reset, bus := .reset, mail := .reset }

end Sys2Proof.Machine
end

