-- ==== Sys2Proof/Machine/Codes.lean ====
section
/-!
DEFINITION. The numbers of named values (R193): a value from a named list is numbered from 0 in the order the manual
lists it where the field is defined, unless 12_message_and_frame_formats.md gives numbers.
-/
namespace Sys2Proof
open Machine

/-- Lanes 0 to 7 (00_scope.md). -/
def Lane.num : Lane → Nat
  | .l0 => 0 | .l1 => 1 | .l2 => 2 | .l3 => 3 | .l4 => 4 | .l5 => 5 | .l6 => 6 | .l7 => 7
/-- The value a code names, if it names one (00_scope.md). -/
def Lane.ofNum : Nat → Option Lane
  | 0 => some .l0 | 1 => some .l1 | 2 => some .l2 | 3 => some .l3 | 4 => some .l4 | 5 => some .l5 | 6 => some .l6
  | 7 => some .l7 | _ => Option.none

/-- Role numbers of the ports (00_scope.md). -/
def Port.num : Port → Nat
  | .security => 0 | .reception => 1 | .dispatch => 2

/-- Bits of the notices (R193). -/
def Notice.num : Notice → Nat
  | .replyReady => 0 | .journalPending => 1 | .callsPending => 2 | .alarm => 3 | .lane => 4 | .bank => 5 | .loss => 6
  | .stall => 7 | .clock => 8

/-- The slot's number on its lane line (00_scope.md). -/
def Slot.num : Slot → Nat
  | .outer => 1 | .inner => 2 | .drive => 3

/-- All eight lanes, in number order. -/
def Lane.all : List Lane := [.l0, .l1, .l2, .l3, .l4, .l5, .l6, .l7]

/-- All three ports, in role order. -/
def Port.all : List Port := [.security, .reception, .dispatch]

/-- The slot of a reader head. -/
def Reader.slot : Reader → Slot
  | .outer => .outer | .inner => .inner

namespace Machine

/-- The numbers of R193's list order, in requests and in reply bodies. R195 numbers the direction from 1 in a journal
record, and that this holds there alone is the model's choice (log entry 7). -/
def Direction.num : Direction → Nat
  | .entry => 0 | .exit => 1
/-- The value a code names, if it names one (R45, R193). -/
def Direction.ofNum : Nat → Option Direction
  | 0 => some .entry | 1 => some .exit | _ => Option.none

/-- R1, R193. -/
def Class.num : Class → Nat
  | .staff => 0 | .contractor => 1 | .visitor => 2
/-- The value a code names, if it names one (R1, R193). -/
def Class.ofNum : Nat → Option Class
  | 0 => some .staff | 1 => some .contractor | 2 => some .visitor | _ => Option.none

/-- R1, R193. -/
def Issuer.num : Issuer → Nat
  | .security => 0 | .reception => 1
/-- The value a code names, if it names one (R1, R193). -/
def Issuer.ofNum : Nat → Option Issuer
  | 0 => some .security | 1 => some .reception | _ => Option.none

/-- R1, R193. -/
def Directions.num : Directions → Nat
  | .entry => 0 | .exit => 1 | .both => 2
/-- The value a code names, if it names one (R1, R193). -/
def Directions.ofNum : Nat → Option Directions
  | 0 => some .entry | 1 => some .exit | 2 => some .both | _ => Option.none

/-- R1, R193. -/
def PassbackRule.num : PassbackRule → Nat
  | .strict => 0 | .soft => 1 | .none => 2
/-- The value a code names, if it names one (R1, R193). -/
def PassbackRule.ofNum : Nat → Option PassbackRule
  | 0 => some .strict | 1 => some .soft | 2 => some .none | _ => Option.none

/-- R1, R193. -/
def Side.num : Side → Nat
  | .outside => 0 | .inside => 1 | .unknown => 2
/-- The value a code names, if it names one (R1, R193). -/
def Side.ofNum : Nat → Option Side
  | 0 => some .outside | 1 => some .inside | 2 => some .unknown | _ => Option.none

/-- R1, R193. -/
def Medium.num : Medium → Nat
  | .card => 0 | .phone => 1 | .code => 2

/-- R48, R195. -/
def LaneState.num : LaneState → Nat
  | .masked => 0 | .enumerating => 1 | .ready => 2 | .serving => 3 | .alarm => 4 | .free => 5 | .isolated => 6
  | .fault => 7

/-- R51, R193. -/
def Mode.num : Mode → Nat
  | .secured => 0 | .entryOnly => 1 | .exitOnly => 2 | .closed => 3
/-- The value a code names, if it names one (R51, R193). -/
def Mode.ofNum : Nat → Option Mode
  | 0 => some .secured | 1 => some .entryOnly | 2 => some .exitOnly | 3 => some .closed | _ => Option.none

/-- R51, R193. -/
def ModeSource.num : ModeSource → Nat
  | .bank => 0 | .own => 1
/-- The value a code names, if it names one (R51, R193). -/
def ModeSource.ofNum : Nat → Option ModeSource
  | 0 => some .bank | 1 => some .own | _ => Option.none

/-- R195. -/
def AlarmReason.num : AlarmReason → Nat
  | .tailgate => 0 | .intrusion => 1 | .loiter => 2 | .obstructed => 3

/-- R54, R193. -/
def WinState.num : WinState → Nat
  | .queued => 0 | .assigning => 1 | .paced => 2 | .opened => 3 | .transit => 4 | .closing => 5

/-- The numbers of R193's list order (R54). R195 numbers the origin from 1 in a journal record, and that this holds there
alone is the model's choice (log entry 7). -/
def Origin.num : Origin → Nat
  | .presentation => 0 | .escortRelease => 1 | .deskPass => 2

/-- R54, R193. -/
def CallState.num : CallState → Nat
  | .none => 0 | .posted => 1 | .taken => 2 | .timedOut => 3 | .answered => 4 | .declined => 5 | .expired => 6
  | .notPosted => 7

/-- R195. -/
def WinOutcome.num : WinOutcome → Nat
  | .passed => 0 | .unused => 1 | .withdrawn => 2 | .overtaken => 3 | .stalled => 4 | .faulted => 5 | .aborted => 6

/-- R55, R196. -/
def LeafPosition.num : LeafPosition → Nat
  | .closed => 0 | .opening => 1 | .openIn => 2 | .openOut => 3 | .closing => 4 | .held => 5
/-- The value a code names, if it names one (R55, R196). -/
def LeafPosition.ofNum : Nat → Option LeafPosition
  | 0 => some .closed | 1 => some .opening | 2 => some .openIn | 3 => some .openOut | 4 => some .closing
  | 5 => some .held | _ => Option.none

/-- R139, R193. -/
def SlotStatus.num : SlotStatus → Nat
  | .off => 0 | .querying => 1 | .agreed => 2 | .lost => 3 | .jabber => 4 | .refused => 5 | .silent => 6

/-- R51, R152, R193. -/
def LeafProfile.num : LeafProfile → Nat
  | .overlapPair => 0 | .singlePair => 1 | .singleBasic => 2

/-- R139, R193. -/
def RefusalReason.num : RefusalReason → Nat
  | .rate => 0 | .mismatch => 1

/-- R116, R193. -/
def GovSource.num : GovSource → Nat
  | .total => 0 | .staff => 1 | .contractor => 2 | .visitor => 3
/-- The value a code names, if it names one (R116, R193). -/
def GovSource.ofNum : Nat → Option GovSource
  | 0 => some .total | 1 => some .staff | 2 => some .contractor | 3 => some .visitor | _ => Option.none

/-- R116, R193. -/
def GovAction.num : GovAction → Nat
  | .pace => 0 | .bar => 1 | .closeEntry => 2
/-- The value a code names, if it names one (R116, R193). -/
def GovAction.ofNum : Nat → Option GovAction
  | 0 => some .pace | 1 => some .bar | 2 => some .closeEntry | _ => Option.none

/-- R116, R193. -/
def PaceMode.num : PaceMode → Nat
  | .eighths => 0 | .divide => 1
/-- The value a code names, if it names one (R116, R193). -/
def PaceMode.ofNum : Nat → Option PaceMode
  | 0 => some .eighths | 1 => some .divide | _ => Option.none

/-- R125, R193. -/
def EgressState.num : EgressState → Nat
  | .normal => 0 | .egress => 1 | .restoring => 2

/-- R164, R193. -/
def ClockSource.num : ClockSource → Nat
  | .securityOnly => 0 | .beacon => 1
/-- The value a code names, if it names one (R164, R193). -/
def ClockSource.ofNum : Nat → Option ClockSource
  | 0 => some .securityOnly | 1 => some .beacon | _ => Option.none

/-- R82, R193. -/
def WaitPhase.num : WaitPhase → Nat
  | .waiting => 0 | .releasePending => 1 | .releasing => 2

/-- R193. -/
def VerdictKind.num : VerdictKind → Nat
  | .grant => 0 | .awaitSponsor => 1 | .busy => 2 | .repeated => 3 | .free => 4 | .deny => 5

/-- R193. -/
def DenyReason.num : DenyReason → Nat
  | .laneDirection => 0 | .unknownCredential => 1 | .inUse => 2 | .suspended => 3 | .media => 4
  | .laneNotPermitted => 5 | .direction => 6 | .clockUnset => 7 | .notYet => 8 | .expired => 9 | .usedUp => 10
  | .lockdown => 11 | .governor => 12 | .passback => 13 | .escortBusy => 14

/-- R93, R195. -/
def EscortCode.num : EscortCode → Nat
  | .creditMade => 0 | .creditRenewed => 1 | .creditExpired => 2 | .creditRemoved => 3 | .creditsCleared => 4
  | .releasePending => 5 | .released => 6 | .escortTimeout => 7 | .withdrawn => 8 | .overtaken => 9 | .deskPass => 10

/-- R108, R195. -/
def DispatchCode.num : DispatchCode → Nat
  | .callLost => 0 | .cancelLost => 1 | .expired => 2 | .timedOut => 3 | .assigned => 4 | .declined => 5
  | .stale => 6

/-- R195. -/
def BankCode.num : BankCode → Nat
  | .egressCall => 0 | .egress => 1 | .restoring => 2 | .restored => 3 | .lockdown => 4 | .governor => 5
  | .countsUncertain => 6 | .countsSet => 7

/-- R195. -/
def TableCode.num : TableCode → Nat
  | .revoked => 0 | .purged => 1 | .swept => 2 | .sweepSkipped => 3

/-- R195. -/
def ClockCode.num : ClockCode → Nat
  | .wrapped => 0 | .clockSet => 1 | .beaconSet => 2 | .beaconStep => 3 | .beaconRejected => 4

/-- R187, R193. -/
def Status.num : Status → Nat
  | .ok => 0 | .notReady => 1 | .noReply => 2 | .malformed => 3 | .unknownRequest => 4 | .rights => 5
  | .badField => 6 | .noEntry => 7 | .duplicate => 8 | .tableFull => 9 | .quotaFull => 10 | .noSponsor => 11
  | .sponsorFull => 12 | .sponsorInUse => 13 | .laneState => 14 | .laneReserved => 15 | .laneOccupied => 16
  | .stale => 17 | .timeout => 18 | .overtaken => 19 | .denied => 20

/-- R196. -/
def SenseSide.num : SenseSide → Nat
  | .outside => 0 | .inside => 1

/-- The kind of a record, numbered in the order VERDICT to CLOCK (R169, R195). -/
def JournalCode.kind : JournalCode → Nat
  | .verdict _ => 0 | .passage => 1 | .window _ => 2 | .alarm _ => 3 | .escort _ => 4 | .dispatch _ => 5 | .lane _ => 6
  | .bank _ => 7 | .table _ => 8 | .clock _ => 9

/-- Codes of LANE records: the eight lane states, then the lane events (R195). -/
def LaneCode.num : LaneCode → Nat
  | .state s => s.num
  | .unmatchedExit => 8 | .unmatchedRetreat => 9 | .moduleJabber => 10 | .moduleLost => 11 | .moduleAgreed => 12
  | .moduleRefused => 13 | .moduleSilent => 14 | .reservationEnded => 15

/-- The code of a record within its kind (R195). -/
def JournalCode.num : JournalCode → Nat
  | .verdict v => v.num | .passage => WinOutcome.num .passed | .window o => o.num | .alarm r => r.num
  | .escort c => c.num | .dispatch c => c.num | .lane c => c.num | .bank c => c.num | .table c => c.num
  | .clock c => c.num

end Machine

end Sys2Proof
end

