-- ==== Sys2Proof/Machine/Ops.lean ====
section
/-!
DEFINITION. The named operations over the state: the accessors of its collections, the messages blocks hand to one
another, the reply of a request, and the operations over the Permit Table and its arbiter.
-/
namespace Sys2Proof.Machine

/-! ## Collections -/

/-- The value held for a lane. -/
def PerLane.get {α : Type} (v : PerLane α) : Lane → α
  | .l0 => v.l0 | .l1 => v.l1 | .l2 => v.l2 | .l3 => v.l3 | .l4 => v.l4 | .l5 => v.l5 | .l6 => v.l6 | .l7 => v.l7

/-- The same values but for one lane's. -/
def PerLane.set {α : Type} (v : PerLane α) (l : Lane) (a : α) : PerLane α :=
  match l with
  | .l0 => { v with l0 := a } | .l1 => { v with l1 := a } | .l2 => { v with l2 := a } | .l3 => { v with l3 := a }
  | .l4 => { v with l4 := a } | .l5 => { v with l5 := a } | .l6 => { v with l6 := a } | .l7 => { v with l7 := a }

/-- The value held for a port. -/
def PerPort.get {α : Type} (v : PerPort α) : Port → α
  | .security => v.security | .reception => v.reception | .dispatch => v.dispatch

/-- The same values but for one port's. -/
def PerPort.set {α : Type} (v : PerPort α) (p : Port) (a : α) : PerPort α :=
  match p with
  | .security => { v with security := a } | .reception => { v with reception := a } | .dispatch => { v with dispatch := a }

/-- A function applied to every lane's value. -/
def PerLane.map {α β : Type} (f : α → β) (v : PerLane α) : PerLane β :=
  ⟨f v.l0, f v.l1, f v.l2, f v.l3, f v.l4, f v.l5, f v.l6, f v.l7⟩

/-- A function applied to every port's value. -/
def PerPort.map {α β : Type} (f : α → β) (v : PerPort α) : PerPort β := ⟨f v.security, f v.reception, f v.dispatch⟩

/-- A function of the port, as a value for each port. -/
def PerPort.tabulate {α : Type} (f : Port → α) : PerPort α := ⟨f .security, f .reception, f .dispatch⟩

/-- The oldest member of a queue that satisfies `p`, and the queue without it: messages of one block are taken in
the order sent, those of different blocks in any order (R170). -/
def takeFirst {α : Type} (p : α → Bool) : List α → Option (α × List α)
  | [] => none
  | x :: xs => if p x then some (x, xs) else (takeFirst p xs).map (fun r => (r.1, x :: r.2))

/-- One lane sequencer. -/
def State.lane (s : State) (l : Lane) : LaneUnit := s.lanes.get l

/-- One lane line controller. -/
def State.line (s : State) (l : Lane) : LineUnit := s.lines.get l

/-- One port unit. -/
def State.port (s : State) (p : Port) : PortUnit := s.ports.get p

/-- A change at one lane sequencer. -/
def State.onLane (s : State) (l : Lane) (f : LaneUnit → LaneUnit) : State :=
  { s with lanes := s.lanes.set l (f (s.lane l)) }

/-- A change at one lane line controller. -/
def State.onLine (s : State) (l : Lane) (f : LineUnit → LineUnit) : State :=
  { s with lines := s.lines.set l (f (s.line l)) }

/-- A change at one port unit. -/
def State.onPort (s : State) (p : Port) (f : PortUnit → PortUnit) : State :=
  { s with ports := s.ports.set p (f (s.port p)) }

/-- A change of the messages. -/
def State.onMail (s : State) (f : Mail → Mail) : State := { s with mail := f s.mail }

/-- A change at the Permit Table unit. -/
def State.onTable (s : State) (f : TableUnit → TableUnit) : State := { s with table := f s.table }

/-- A change at the arbiter. -/
def State.onArbiter (s : State) (f : Arbiter → Arbiter) : State := { s with arbiter := f s.arbiter }

/-- A small counter goes up by one and stops at its bound (00_scope.md, Numbers). -/
def saturate (n : Nat) : Nat := if n < Config.counterMax then n + 1 else Config.counterMax

/-- The event an outside or inside command stands for is taken unless RESET_N is held low: in reset the blocks hold
their warm-reset values and take no event (00_scope.md, Resets; log entry 9). -/
def running (s t : State) : Host.Outcome State Fault Refusal := .next (if s.resetHeld then s else t)

/-! ## The lobby time -/

/-- The lobby time as records, windows and postings store it (R161). -/
def State.stamp (s : State) : Stamp := if s.clock.set then .time s.clock.secs else .unset

/-- A timer of the given length, started now: the time at which it runs out (R167). -/
def State.after (s : State) (ms : Nat) : Nat := s.time + ms

/-- A timer that runs and has reached its length. -/
def State.due (s : State) : Option Nat → Bool
  | some d => decide (d ≤ s.time)
  | none => false

/-! ## Messages -/

/-- A block hands a record to the journal unit (R170). -/
def handOver (src : Source) (r : Record) (s : State) : State :=
  s.onMail (fun m => { m with records := m.records ++ [(src, r)] })

/-- A latched notice is set at one port (R177): the notice unit takes it as an event of its own. -/
def notify (p : Port) (n : Notice) (s : State) : State :=
  s.onMail (fun m => { m with notices := m.notices ++ [.latched p n] })

/-- A latched notice is set at every port (R177). -/
def notifyAll (n : Notice) (s : State) : State :=
  s.onMail (fun m => { m with notices := m.notices ++ Port.all.map (fun p => .latched p n) })

/-- A report of a level notice's state (R176). -/
def reportLevel (p : Port) (n : Notice) (v : Bool) (s : State) : State :=
  s.onMail (fun m => { m with notices := m.notices ++ [.level p n v] })

/-- A lane reports to the bank safety unit (R125). -/
def report (l : Lane) (r : LaneReport) (s : State) : State :=
  s.onMail (fun m => { m with reports := m.reports ++ [(l, r)] })

/-- A window's withdrawal is sent to its lane (R13). -/
def sendWithdrawal (t : Tag) (s : State) : State :=
  s.onMail (fun m => { m with withdrawals := m.withdrawals ++ [t] })

/-- The escort unit is told to end a record (R9, R12, R15). -/
def tellEscort (e : EscortEnd) (s : State) : State :=
  s.onMail (fun m => { m with escortEnds := m.escortEnds ++ [e] })

/-- A dispatch indication is requested after the change (R100). -/
def indicate (t : Tag) (i : Indication) (s : State) : State :=
  s.onMail (fun m => { m with indications := m.indications ++ [(t, i)] })

/-! ## Requests and replies -/

/-- The request handed on by a port and not yet taken by its block (R187). -/
def State.request (s : State) (p : Port) : Option Request := (s.port p).handed

/-- The owning block takes the port's request (R187). -/
def takeRequest (p : Port) (s : State) : State := s.onPort p (fun u => { u with handed := none })

/-- A reply's bytes: status, length, body (R188, R193). -/
def replyBytes (st : Status) (body : List Byte) : List Byte :=
  BitVec.ofNat 8 st.num :: BitVec.ofNat 8 body.length :: body

/-- The owning block hands its reply back; REPLY_TO_SLOT takes it to the slot (R187). -/
def answer (p : Port) (st : Status) (body : List Byte) (s : State) : State :=
  s.onMail (fun m => { m with replies := m.replies.set p (some (replyBytes st body)) })

/-! ## The arbiter (R10) -/

/-- Requests that are operations at the Permit Table (R11 to R19). -/
def Request.atTable : Request → Bool
  | .insertEntry _ | .modifyEntry _ | .revokeEntry _ _ _ | .queryEntry _ | .setSide _ _ | .purge _ _ | .setQuota _
  | .tableStatus => true
  | _ => false

/-- A port has an operation waiting in the third class: a table request or a desk-pass lookup (R10). -/
def portWaits (s : State) (p : Port) : Bool :=
  (match s.request p with | some r => r.atTable | none => false) || (s.arbiter.desk.get p).isSome

/-- A claimant of the third class has something waiting (R10). -/
def claimantWaits (s : State) : Claimant → Bool
  | .security => portWaits s .security
  | .reception => portWaits s .reception
  | .walker => s.table.walk.isSome
  | .safety => s.arbiter.amnesty

/-- The next claimant round the circle (R10). -/
def Claimant.succ : Claimant → Claimant
  | .security => .reception | .reception => .walker | .walker => .safety | .safety => .security

/-- The claimant that the third class serves next (R10): the first with something waiting, from the round-robin
place on. -/
def thirdClassTurn (s : State) : Option Claimant :=
  [s.arbiter.next, s.arbiter.next.succ, s.arbiter.next.succ.succ, s.arbiter.next.succ.succ.succ].find? (claimantWaits s)

/-- The table takes this claimant's operation now: the first two classes have nothing waiting, and the circle has come
to it (R10). -/
def hasTurn (s : State) (c : Claimant) : Bool :=
  s.arbiter.first.isEmpty && s.arbiter.second.isEmpty && thirdClassTurn s == some c

/-- The claimant a port is in the third class; the DISPATCH port is none (R10). -/
def Port.claimant? : Port → Option Claimant
  | .security => some .security | .reception => some .reception | .dispatch => none

/-- The port's operation has its turn at the table (R10). -/
def portTurn (s : State) (p : Port) : Bool :=
  match Port.claimant? p with
  | some c => hasTurn s c
  | none => false

/-- The place after a claimant was served (R10). -/
def served (c : Claimant) (s : State) : State := s.onArbiter (fun a => { a with next := c.succ })

/-- The place after a port was served (R10). -/
def portServed (p : Port) (s : State) : State :=
  match Port.claimant? p with
  | some c => served c s
  | none => s

/-- The port's table request whose turn has come (R10). -/
def tableRequest (s : State) (p : Port) : Option Request := if portTurn s p then s.request p else none

/-- The oldest waiting operation of the first class, which is always taken next (R10). -/
def firstTurn (s : State) : Option FirstOp := s.arbiter.first.head?

/-- The oldest waiting operation of the second class, taken when the first class is empty (R10). -/
def secondTurn (s : State) : Option SecondOp := if s.arbiter.first.isEmpty then s.arbiter.second.head? else none

/-- The first class's oldest operation is taken. -/
def popFirst (s : State) : State := s.onArbiter (fun a => { a with first := a.first.tail })

/-- The second class's oldest operation is taken. -/
def popSecond (s : State) : State := s.onArbiter (fun a => { a with second := a.second.tail })

/-- An operation joins the first class. -/
def claimFirst (x : FirstOp) (s : State) : State := s.onArbiter (fun a => { a with first := a.first ++ [x] })

/-- An operation joins the second class. -/
def claimSecond (x : SecondOp) (s : State) : State := s.onArbiter (fun a => { a with second := a.second ++ [x] })

/-! ## The Permit Table (R1, R8, R9) -/

/-- A number that is a credential (R1). -/
def Cred.valid (c : Cred) : Bool := c != 0 && c != 0xFFFFFFFF

/-- The entry of a credential. -/
def findEntry (c : Cred) (es : List Entry) : Option Entry := es.find? (fun e => e.cred == c)

/-- The entry of a credential in the table. -/
def State.entry (s : State) (c : Cred) : Option Entry := findEntry c s.table.entries

/-- A change of one entry; `f` keeps the credential. -/
def mapEntry (c : Cred) (f : Entry → Entry) (es : List Entry) : List Entry :=
  es.map (fun e => if e.cred == c then f e else e)

/-- A new entry at its place in the sorted list. -/
def insertSorted (e : Entry) : List Entry → List Entry
  | [] => [e]
  | x :: xs => if e.cred.toNat < x.cred.toNat then e :: x :: xs else x :: insertSorted e xs

/-- The list without one credential's entry. -/
def dropEntry (c : Cred) (es : List Entry) : List Entry := es.filter (fun e => e.cred != c)

/-- The canonical form of the table: credentials strictly rising, so that equal tables are equal lists (R1). -/
def sortedEntries : List Entry → Bool
  | [] => true
  | [_] => true
  | a :: b :: r => decide (a.cred.toNat < b.cred.toNat) && sortedEntries (b :: r)

/-- The table's canonical form (R1). -/
def TableUnit.wf (t : TableUnit) : Bool := sortedEntries t.entries

/-- A change of one entry of the table. -/
def onEntry (c : Cred) (f : Entry → Entry) (s : State) : State :=
  s.onTable (fun t => { t with entries := mapEntry c f t.entries })

/-- One is added to a sponsor's refs (R8). -/
def addRef (c : Cred) (s : State) : State := onEntry c (fun e => { e with refs := e.refs + 1 }) s

/-- One is taken from a sponsor's refs (R8). -/
def dropRef (c : Cred) (s : State) : State := onEntry c (fun e => { e with refs := e.refs - 1 }) s

/-- An entry removed before a walk reaches it is not visited (R20). -/
def Walk.forget (c : Cred) : Walk → Walk
  | .purge cl is st todo n => .purge cl is st (todo.filter (· != c)) n
  | .forcedRevoke x w st todo n sent => .forcedRevoke x w st (todo.filter (· != c)) n sent
  | .sweep todo n => .sweep (todo.filter (· != c)) n

/-- The effects every removal of an entry has in the same table operation (R9). -/
def removeEntry (e : Entry) (s : State) : State :=
  let s := match e.sponsor with
    | some p => dropRef p s
    | none => s
  let s := s.onTable (fun t =>
    { t with
      entries := dropEntry e.cred t.entries
      receptionCount := if e.issuer = .reception then t.receptionCount - 1 else t.receptionCount
      departed := match e.claim with
        | some (.window g) => t.departed ++ [⟨g, e.cred⟩]
        | _ => t.departed
      walk := t.walk.map (Walk.forget e.cred) })
  let s := if e.claim = some .wait then tellEscort (.wait e.cred) s else s
  tellEscort (.credit e.cred) s

/-- A lookup treats the entry as suspended: its own field, or a removal by a walk of it or of its sponsor (R15, R18, R34). -/
def treatedSuspended (s : State) (e : Entry) : Bool :=
  e.suspended || e.inRemoval ||
    (match e.sponsor with
     | some p => (match s.entry p with | some x => x.inRemoval | none => false)
     | none => false)

/-- The withdraw option (R13): a live window is withdrawn at its lane; answers whether a withdrawal was sent. -/
def withdrawClaim (claim : Option Claim) (s : State) : State × Bool :=
  match claim with
  | some (.window t) => (sendWithdrawal t s, true)
  | _ => (s, false)

/-- The credentials of the entries present (R1). -/
def presentCreds (s : State) : List Cred := s.table.entries.map (·.cred)

end Sys2Proof.Machine
end

