-- ==== Sys2Proof/Machine/Operands.lean ====
section
/-!
DEFINITION. Bytes and what they say: numbers (most significant byte first), the requests masters write (R187, R193, R194)
and the frames of the lane lines (R140, R141, R196).
-/
namespace Sys2Proof.Machine

/-! ## Numbers -/

/-- One byte of a number. -/
def b1 (n : Nat) : List Byte := [BitVec.ofNat 8 n]
/-- Two bytes of a number, most significant first (R193). -/
def b2 (n : Nat) : List Byte := [BitVec.ofNat 8 (n / 256), BitVec.ofNat 8 n]
/-- Three bytes of a number, most significant first (R193). -/
def b3 (n : Nat) : List Byte := [BitVec.ofNat 8 (n / 65536), BitVec.ofNat 8 (n / 256), BitVec.ofNat 8 n]
/-- Four bytes of a word, most significant first (R193). -/
def b4 (v : BitVec 32) : List Byte :=
  [v.extractLsb' 24 8, v.extractLsb' 16 8, v.extractLsb' 8 8, v.extractLsb' 0 8]
/-- A yes/no item: 1 for yes (R193). -/
def yes (b : Bool) : Byte := if b then 1 else 0

/-- The number two bytes spell. -/
def be2 (a b : Byte) : Nat := a.toNat * 256 + b.toNat
/-- The word four bytes spell. -/
def be4 (a b c d : Byte) : BitVec 32 := a ++ b ++ c ++ d

/-- The yes/no item a byte names: 1 yes, 0 no, any other value names nothing (R193). -/
def yesNo (b : Byte) : Option Bool := if b = 1 then some true else if b = 0 then some false else none

/-! ## Request codes and rights (R187, R193) -/

/-- The requests by name (R187). -/
inductive RequestName where
  | insertEntry | modifyEntry | revokeEntry | queryEntry | setSide | purge | setQuota | tableStatus | deskPass | setLane
  | setBankMode | setLaneMask | isolateLane | resumeLane | restartLane | alarmReset | readLaneCounters | laneStatus
  | setEscort | escortStatus | takeCalls | assign | decline | setDispatch | dispatchStatus | setCounts | counts
  | setGovernor | governorStatus | restore | setEgress | lockdown | safetyStatus | setLine | setClock | setClockSource
  | readClock | readJournal | subscribe | journalStatus | readNotices | setNoticeMask | setBus | bankReset
deriving DecidableEq, Repr

/-- The request a code names (R193). -/
def requestNamed : Nat → Option RequestName
  | 0x10 => some .insertEntry | 0x11 => some .modifyEntry | 0x12 => some .revokeEntry | 0x13 => some .queryEntry
  | 0x14 => some .setSide | 0x15 => some .purge | 0x16 => some .setQuota | 0x17 => some .tableStatus
  | 0x18 => some .deskPass | 0x20 => some .setLane | 0x21 => some .setBankMode | 0x22 => some .setLaneMask
  | 0x23 => some .isolateLane | 0x24 => some .resumeLane | 0x25 => some .restartLane | 0x26 => some .alarmReset
  | 0x27 => some .readLaneCounters | 0x28 => some .laneStatus | 0x30 => some .setEscort | 0x31 => some .escortStatus
  | 0x38 => some .takeCalls | 0x39 => some .assign | 0x3A => some .decline | 0x3B => some .setDispatch
  | 0x3C => some .dispatchStatus | 0x40 => some .setCounts | 0x41 => some .counts | 0x42 => some .setGovernor
  | 0x43 => some .governorStatus | 0x48 => some .restore | 0x49 => some .setEgress | 0x4A => some .lockdown
  | 0x4B => some .safetyStatus | 0x4C => some .setLine | 0x50 => some .setClock | 0x51 => some .setClockSource
  | 0x52 => some .readClock | 0x58 => some .readJournal | 0x59 => some .subscribe | 0x5A => some .journalStatus
  | 0x5B => some .readNotices | 0x5C => some .setNoticeMask | 0x60 => some .setBus | 0x7F => some .bankReset
  | _ => none

/-- The table of rights (R187). -/
def hasRight (n : RequestName) (p : Port) : Bool :=
  match n with
  | .insertEntry | .modifyEntry | .revokeEntry | .queryEntry | .tableStatus | .deskPass | .escortStatus
  | .governorStatus => p != .dispatch
  | .setSide | .purge | .setQuota | .setLane | .setBankMode | .setLaneMask | .isolateLane | .resumeLane | .restartLane
  | .alarmReset | .readLaneCounters | .setEscort | .setDispatch | .setCounts | .setGovernor | .restore | .setEgress
  | .lockdown | .safetyStatus | .setLine | .setClock | .setClockSource | .setBus | .bankReset => p == .security
  | .takeCalls | .assign | .decline => p == .dispatch
  | .dispatchStatus => p != .reception
  | .laneStatus | .counts | .readClock | .readJournal | .subscribe | .journalStatus | .readNotices
  | .setNoticeMask => true

/-! ## Forms of the requests (R193, R194) -/

/-- What is left of a body, and a value read from its front. -/
abbrev Reading (α : Type) := Option (α × List Byte)

/-- One byte, when a presence or mask bit asks for it. -/
def readByteIf (c : Bool) (bs : List Byte) : Reading (Option Byte) :=
  if c then (match bs with | b :: r => some (some b, r) | [] => none) else some (none, bs)

/-- Two bytes, when a mask bit asks for them. -/
def readWordIf (c : Bool) (bs : List Byte) : Reading (Option Nat) :=
  if c then (match bs with | a :: b :: r => some (some (be2 a b), r) | _ => none) else some (none, bs)

/-- Four bytes, when a presence or mask bit asks for them. -/
def readLongIf (c : Bool) (bs : List Byte) : Reading (Option (BitVec 32)) :=
  if c then (match bs with | a :: b :: x :: y :: r => some (some (be4 a b x y), r) | _ => none) else some (none, bs)

/-- What a modify does to an optional field, from its mask bit, its clear bit and its value (R194). -/
def changeOf {α : Type} (named cleared : Bool) (v : Option α) : Change α :=
  if !named then .keep else if cleared then .clear else (match v with | some x => .set x | none => .keep)

/-- The INSERT_ENTRY body: credential, options (0), attributes; its size is fixed by byte D (R194). -/
def parseInsert : List Byte → Option Request
  | c3 :: c2 :: c1 :: c0 :: opt :: a :: b :: c :: d :: r0 =>
    if opt ≠ 0 then none else
    (readLongIf (d.getLsbD 0) r0).bind fun (vf, r1) =>
    (readLongIf (d.getLsbD 1) r1).bind fun (vu, r2) =>
    (readByteIf (d.getLsbD 2) r2).bind fun (us, r3) =>
    (readLongIf (d.getLsbD 3) r3).bind fun (sp, r4) =>
    (readByteIf (d.getLsbD 4) r4).bind fun (fl, r5) =>
    if r5.isEmpty then some (.insertEntry ⟨be4 c3 c2 c1 c0, a, b, c, d, vf, vu, us, sp, fl⟩) else none
  | _ => none

/-- The MODIFY_ENTRY body: credential, options (bit 0 withdraw), change mask, clear byte, values (R194). A clear bit
for a field the mask does not name is MALFORMED, and so is one that names no field. -/
def parseModify : List Byte → Option Request
  | c3 :: c2 :: c1 :: c0 :: opt :: m1 :: m0 :: k :: r0 =>
    let m : BitVec 16 := m1 ++ m0
    let named : Nat → Bool := fun i => m.getLsbD i
    let cleared : Nat → Bool := fun i => k.getLsbD i
    let value : Nat → Bool := fun i => named (7 + i) && !cleared i
    if opt.toNat > 1 || k.toNat > 31 || (cleared 0 && !named 7) || (cleared 1 && !named 8) || (cleared 2 && !named 9)
        || (cleared 3 && !named 10) || (cleared 4 && !named 11) then none else
    (readByteIf (named 0) r0).bind fun (cls, r) =>
    (readByteIf (named 1) r).bind fun (sus, r) =>
    (readByteIf (named 2) r).bind fun (res, r) =>
    (readByteIf (named 3) r).bind fun (med, r) =>
    (readByteIf (named 4) r).bind fun (lan, r) =>
    (readByteIf (named 5) r).bind fun (dirs, r) =>
    (readByteIf (named 6) r).bind fun (pb, r) =>
    (readLongIf (value 0) r).bind fun (vf, r) =>
    (readLongIf (value 1) r).bind fun (vu, r) =>
    (readByteIf (value 2) r).bind fun (us, r) =>
    (readLongIf (value 3) r).bind fun (sp, r) =>
    (readByteIf (value 4) r).bind fun (fl, r) =>
    if r.isEmpty then
      some (.modifyEntry
        { cred := be4 c3 c2 c1 c0, withdraw := opt.getLsbD 0, foreign := decide (m.toNat ≥ 4096), cls := cls,
          suspended := sus, responder := res, media := med, lanes := lan, directions := dirs, passback := pb,
          validFrom := changeOf (named 7) (cleared 0) vf, validUntil := changeOf (named 8) (cleared 1) vu,
          uses := changeOf (named 9) (cleared 2) us, sponsor := changeOf (named 10) (cleared 3) sp,
          floor := changeOf (named 11) (cleared 4) fl })
    else none
  | _ => none

/-- The SET_LANE body: lane, change mask, then each named setting in the order of R51 (R193). -/
def parseSetLane : List Byte → Option Request
  | lane :: m :: r =>
    (readByteIf (m.getLsbD 0) r).bind fun (mode, r) =>
    (readByteIf (m.getLsbD 1) r).bind fun (src, r) =>
    (readByteIf (m.getLsbD 2) r).bind fun (opn, r) =>
    (readByteIf (m.getLsbD 3) r).bind fun (tra, r) =>
    (readByteIf (m.getLsbD 4) r).bind fun (clr, r) =>
    (readByteIf (m.getLsbD 5) r).bind fun (lat, r) =>
    (readByteIf (m.getLsbD 6) r).bind fun (leaf, r) =>
    (readByteIf (m.getLsbD 7) r).bind fun (med, r) =>
    if r.isEmpty then some (.setLane lane ⟨mode, src, opn, tra, clr, lat, leaf, med⟩) else none
  | _ => none

/-- The SET_DISPATCH body: change mask and the named settings of R98 (R193). -/
def parseSetDispatch : List Byte → Option Request
  | m :: r =>
    if m.toNat > 7 then none else
    (readByteIf (m.getLsbD 0) r).bind fun (d, r) =>
    (readByteIf (m.getLsbD 1) r).bind fun (h, r) =>
    (readByteIf (m.getLsbD 2) r).bind fun (t, r) =>
    if r.isEmpty then some (.setDispatch d h t) else none
  | _ => none

/-- The SET_GOVERNOR body: group (0xFF for none), two-byte change mask, the named fields in the order of R116 without
the state, the nominal interval last (R193). -/
def parseSetGovernor : List Byte → Option Request
  | g :: m1 :: m0 :: r =>
    let m : BitVec 16 := m1 ++ m0
    if m.toNat > 511 then none else
    (readByteIf (m.getLsbD 0) r).bind fun (en, r) =>
    (readByteIf (m.getLsbD 1) r).bind fun (src, r) =>
    (readWordIf (m.getLsbD 2) r).bind fun (hi, r) =>
    (readWordIf (m.getLsbD 3) r).bind fun (lo, r) =>
    (readByteIf (m.getLsbD 4) r).bind fun (act, r) =>
    (readByteIf (m.getLsbD 5) r).bind fun (mode, r) =>
    (readByteIf (m.getLsbD 6) r).bind fun (n, r) =>
    (readByteIf (m.getLsbD 7) r).bind fun (bar, r) =>
    (readWordIf (m.getLsbD 8) r).bind fun (nom, r) =>
    if r.isEmpty then some (.setGovernor g ⟨en, src, hi, lo, act, mode, n, bar⟩ nom) else none
  | _ => none

/-- A request whose form has no body: bytes after its code are MALFORMED (R193). -/
def bare (q : Request) : List Byte → Option Request
  | [] => some q
  | _ => none

/-- A request whose form has a body: the length byte must give the number of bytes that follow it (R193). -/
def bodied (f : List Byte → Option Request) : List Byte → Option Request
  | n :: body => if n.toNat = body.length then f body else none
  | [] => none

/-- A body of one byte. -/
def one (f : Byte → Request) : List Byte → Option Request
  | [a] => some (f a)
  | _ => none

/-- The REVOKE_ENTRY body: credential, options (bit 0 withdraw, bit 1 force) (R193). -/
def parseRevoke : List Byte → Option Request
  | [a, b, c, d, o] => if o.toNat > 3 then none else some (.revokeEntry (be4 a b c d) (o.getLsbD 0) (o.getLsbD 1))
  | _ => none

/-- The QUERY_ENTRY body: credential, options (0) (R193). -/
def parseQuery : List Byte → Option Request
  | [a, b, c, d, o] => if o = 0 then some (.queryEntry (be4 a b c d)) else none
  | _ => none

/-- The SET_SIDE body: credential, options (0), side (R193). -/
def parseSetSide : List Byte → Option Request
  | [a, b, c, d, o, x] => if o = 0 then some (.setSide (be4 a b c d) x) else none
  | _ => none

/-- The PURGE body: credential field (0), options (0), class set, issuer set; a non-zero credential field is
MALFORMED (R193). -/
def parsePurge : List Byte → Option Request
  | [a, b, c, d, o, x, y] => if be4 a b c d = 0 ∧ o = 0 then some (.purge x y) else none
  | _ => none

/-- The DESK_PASS body: credential, lane, direction (R193). -/
def parseDeskPass : List Byte → Option Request
  | [a, b, c, d, x, y] => some (.deskPass (be4 a b c d) x y)
  | _ => none

/-- A body of one two-byte number. -/
def oneWord (f : Nat → Request) : List Byte → Option Request
  | [a, b] => some (f (be2 a b))
  | _ => none

/-- The ASSIGN body: tag, car (R193). -/
def parseAssign : List Byte → Option Request
  | [a, b, c] => some (.assign a b c)
  | _ => none

/-- The DECLINE body: tag (R193). -/
def parseDecline : List Byte → Option Request
  | [a, b] => some (.decline a b)
  | _ => none

/-- The SET_COUNTS body: three counts (R193). -/
def parseSetCounts : List Byte → Option Request
  | [a, b, c, d, x, y] => some (.setCounts (be2 a b) (be2 c d) (be2 x y))
  | _ => none

/-- The SET_CLOCK body: seconds value (R193). -/
def parseSetClock : List Byte → Option Request
  | [a, b, c, d] => some (.setClock (be4 a b c d))
  | _ => none

/-- The SUBSCRIBE body: two-byte kind set (R193). -/
def parseSubscribe : List Byte → Option Request
  | [a, b] => some (.subscribe (a ++ b))
  | _ => none

/-- The SET_NOTICE_MASK body: two-byte change mask and two-byte values; a mask bit that names no notice is MALFORMED
(R193, log entry 8). -/
def parseSetNoticeMask : List Byte → Option Request
  | [a, b, c, d] => if (a ++ b : BitVec 16).toNat > 1023 then none else some (.setNoticeMask (a ++ b) (c ++ d))
  | _ => none

/-- SET_LINE has no body, or one value (R193). -/
def parseSetLine : List Byte → Option Request
  | [] => some (.setLine none)
  | r => bodied (one (fun v => .setLine (some v))) r

/-- The form check of R187 over the bytes after the code (R193, R194). -/
def parseForm (n : RequestName) (rest : List Byte) : Option Request :=
  match n with
  | .insertEntry => bodied parseInsert rest
  | .modifyEntry => bodied parseModify rest
  | .revokeEntry => bodied parseRevoke rest
  | .queryEntry => bodied parseQuery rest
  | .setSide => bodied parseSetSide rest
  | .purge => bodied parsePurge rest
  | .setQuota => bodied (oneWord .setQuota) rest
  | .tableStatus => bare .tableStatus rest
  | .deskPass => bodied parseDeskPass rest
  | .setLane => bodied parseSetLane rest
  | .setBankMode => bodied (one .setBankMode) rest
  | .setLaneMask => bodied (one .setLaneMask) rest
  | .isolateLane => bodied (one .isolateLane) rest
  | .resumeLane => bodied (one .resumeLane) rest
  | .restartLane => bodied (one .restartLane) rest
  | .alarmReset => bodied (one .alarmReset) rest
  | .readLaneCounters => bodied (one .readLaneCounters) rest
  | .laneStatus => bodied (one .laneStatus) rest
  | .setEscort => bodied (oneWord .setEscort) rest
  | .escortStatus => bodied (one .escortStatus) rest
  | .takeCalls => bare .takeCalls rest
  | .assign => bodied parseAssign rest
  | .decline => bodied parseDecline rest
  | .setDispatch => bodied parseSetDispatch rest
  | .dispatchStatus => bare .dispatchStatus rest
  | .setCounts => bodied parseSetCounts rest
  | .counts => bare .counts rest
  | .setGovernor => bodied parseSetGovernor rest
  | .governorStatus => bare .governorStatus rest
  | .restore => bare .restore rest
  | .setEgress => bodied (one .setEgress) rest
  | .lockdown => bodied (one .lockdown) rest
  | .safetyStatus => bare .safetyStatus rest
  | .setLine => parseSetLine rest
  | .setClock => bodied parseSetClock rest
  | .setClockSource => bodied (one .setClockSource) rest
  | .readClock => bare .readClock rest
  | .readJournal => bodied (one .readJournal) rest
  | .subscribe => bodied parseSubscribe rest
  | .journalStatus => bare .journalStatus rest
  | .readNotices => bare .readNotices rest
  | .setNoticeMask => bodied parseSetNoticeMask rest
  | .setBus => bodied (one .setBus) rest
  | .bankReset => bare .bankReset rest

/-- The port unit's judgement of a taken request (R187): handed on, or refused with a status. -/
inductive Judgement where
  | handedOn (q : Request)
  | refused (st : Status)
deriving DecidableEq, Repr

/-- The four checks of R187 in their order. -/
def judgeRequest (p : Port) (overlong : Bool) (bytes : List Byte) : Judgement :=
  if overlong then .refused .malformed else
  match bytes with
  | [] => .refused .malformed
  | code :: rest =>
    match requestNamed code.toNat with
    | none => .refused .unknownRequest
    | some n =>
      if hasRight n p then
        (match parseForm n rest with | some q => .handedOn q | none => .refused .malformed)
      else .refused .rights

/-- A broadcast write forms a TIME_BEACON when it is exactly the code 0x70, the length 4 and a seconds value (R193). -/
def parseBeacon : List Byte → Option Secs
  | [c, n, x, y, z, w] => if c = 0x70 ∧ n = 4 then some (be4 x y z w) else none
  | _ => none

/-! ## Lane-line frames (R140, R196) -/

/-- Exclusive-or of two bits of a header. -/
def xor2 (a b : Bool) : Bool := a != b

/-- A header's two parity bits over its slot and kind fields: bit 6 is the exclusive-or of bits 0, 2 and 4, bit 7 the
inverse of that of bits 1, 3 and 5 (R196). -/
def withParity (h : Byte) : Byte :=
  let low : Byte := h &&& 0x3F
  let p6 := xor2 (xor2 (low.getLsbD 0) (low.getLsbD 2)) (low.getLsbD 4)
  let p7 := !(xor2 (xor2 (low.getLsbD 1) (low.getLsbD 3)) (low.getLsbD 5))
  low ||| (if p6 then 0x40 else 0) ||| (if p7 then 0x80 else 0)

/-- A header: parity in bits 7-6, the slot in bits 5-4, the kind in bits 3-0 (R196). -/
def header (x : Slot) (kind : Nat) : Byte := withParity (BitVec.ofNat 8 (x.num * 16 + kind))

/-- Addition with end-around carry: a sum above 255 has 255 taken from it (R196). -/
def sumByte (a : Nat) (b : Byte) : Nat := if a + b.toNat > 255 then a + b.toNat - 255 else a + b.toNat

/-- The end-around-carry sum of bytes (R140, R196). -/
def endAroundSum (bs : List Byte) : Nat := bs.foldl sumByte 0

/-- The CHECK byte over the header and data bytes: the inverted sum (R140, R196). -/
def checkByte (bs : List Byte) : Byte := ~~~(BitVec.ofNat 8 (endAroundSum bs))

/-- The SYNC byte (R196). -/
def syncByte : Byte := 0xAA

/-- The bytes of a frame that the CHECK is formed over, with the CHECK (R140, R196). -/
def checkedBytes (x : Slot) (kind : Nat) (data : List Byte) : List Byte :=
  let hd := header x kind :: data
  hd ++ [checkByte hd]

/-- A frame the part sends: BREAK, SYNC, header, data and CHECK (R140, R196). -/
def frame (x : Slot) (kind : Nat) (data : List Byte) : List LineMark :=
  .brk :: (syncByte :: checkedBytes x kind data).map .byte

/-- A leaf command's data byte (R196). -/
def LeafCmd.num : LeafCmd → Nat
  | .close => 1 | .openIn => 2 | .openOut => 3 | .hold => 4 | .holdOpen => 5

/-- An indication's data bytes (R196). -/
def Indication.bytes : Indication → List Byte
  | .blank => [0] | .go => [1] | .stop => [2] | .wait => [3] | .waitSponsor => [4] | .seeDesk => [5]
  | .car n => [6, BitVec.ofNat 8 n] | .seePanel => [7] | .free => [8]

/-- The frames of the cycle's positions 1 to 3 (R144, R196). -/
def leafFrame (c : LeafCmd) : List LineMark := frame .drive 0x2 (b1 c.num)
/-- A SHOW frame (R196). -/
def showFrame (rd : Reader) (i : Indication) : List LineMark := frame rd.slot 0x3 i.bytes
/-- The frames of positions 4 to 6: POLL (the legacy probe is one) and PROFILE_QUERY (R140, R150, R196). -/
def slotFrame (x : Slot) : SentKind → List LineMark
  | .poll | .probe => frame x 0x1 []
  | .query => frame x 0x4 []

/-! ## Judging a reply (R141) -/

/-- What a good reply says. -/
inductive GoodReply where
  | idle
  | presentation (c : Cred) (m : Medium)
  | sense (events : List SenseEvent) (pos : LeafPosition) (zones : Zones)
  | leafProfile (s : LeafSet)
  | readerProfile (m : MediaSet) (display : Bool)
deriving DecidableEq, Repr

/-- How a reply is judged (R141, R142). -/
inductive Judged where
  /-- No BREAK within 2 ms: no reply, and not this one. -/
  | late
  /-- A fourteenth byte after the header (R142). -/
  | jabber
  /-- Discarded by one of the tests of R141. -/
  | bad
  /-- Passes test 1 and fails the rate test (R141, R151). -/
  | rate
  | good (g : GoodReply)
deriving DecidableEq, Repr

/-- The bytes of a reply: a gap longer than 1 ms ends it (R141). -/
def heardBytes : List TimedByte → List Byte
  | [] => []
  | b :: r => b.byte :: (r.takeWhile (fun x => decide (x.gap ≤ 1000))).map (·.byte)

/-- An event byte: code in bits 7-4, side or direction in bit 0, bits 3-1 clear (R196). -/
def parseEvent (b : Byte) : Option SenseEvent :=
  let s : SenseSide := if b.getLsbD 0 then .inside else .outside
  let d : Direction := if b.getLsbD 0 then .exit else .entry
  if b.toNat / 2 % 8 ≠ 0 then none else
  match b.toNat / 16 with
  | 1 => some (.crossIn s) | 2 => some (.crossLeaf d) | 3 => some (.crossOut s) | 4 => some (.retreat s)
  | 5 => some (.pair s) | 6 => some .obstructOn | 7 => some .obstructOff | _ => none

/-- All the event bytes, each with a meaning (R148). -/
def parseEvents : List Byte → Option (List SenseEvent)
  | [] => some []
  | b :: r => match parseEvent b, parseEvents r with
    | some e, some es => some (e :: es)
    | _, _ => none

/-- The SENSE data: event count and position, zones, then the events (R196). -/
def parseSense : List Byte → Option GoodReply
  | h :: z :: evs =>
    let n := h.toNat / 16 % 8
    if n > 4 ∨ z.toNat > 7 ∨ evs.length ≠ n then none else
    match LeafPosition.ofNum (h.toNat % 8), parseEvents evs with
    | some pos, some es => some (.sense es pos ⟨z.getLsbD 2, z.getLsbD 1, z.getLsbD 0⟩)
    | _, _ => none
  | _ => none

/-- The media kind of a PRESENTATION (R196). -/
def mediumOfFrame : Nat → Option Medium
  | 1 => some .card | 2 => some .phone | 3 => some .code | _ => none

/-- Tests 4 and 5 of R141: the kind is one the slot may send in answer to the frame sent, and the data fit it. -/
def readReply (x : Slot) (sent : SentKind) (kind : Nat) (data : List Byte) : Option GoodReply :=
  match sent, x, kind with
  | .query, .drive, 0xB => (match data with
      | [b] => if b &&& 7 = 0 then none else some (.leafProfile (b.extractLsb' 0 3))
      | _ => none)
  | .query, _, 0xB => (match data with
      | [b] => if b &&& 7 = 0 then none else some (.readerProfile (b.extractLsb' 0 3) (b.getLsbD 7))
      | _ => none)
  | .query, _, _ => none
  | _, .drive, 0xA => parseSense data
  | _, .drive, _ => none
  | _, _, 0x9 => if data.isEmpty then some .idle else none
  | _, _, 0x8 => (match data with
      | [a, b, c, d, m] => (mediumOfFrame m.toNat).map (fun k => .presentation (be4 a b c d) k)
      | _ => none)
  | _, _, _ => none

/-- The bit rate lies within 4% of 115,200 bit/s (R141). -/
def rateFits (rate : Nat) : Bool :=
  decide (Config.bitRate * 96 ≤ rate * 100) && decide (rate * 100 ≤ Config.bitRate * 104)

/-- The tests of R141 in their order, with the reply deadline before them and R142's jabber. -/
def judgeReply (x : Slot) (sent : SentKind) (r : RawReply) : Judged :=
  let bs := heardBytes r.bytes
  if r.delay > Config.replyDeadline * 1000 then .late
  else if bs.length ≥ 16 then .jabber
  else if r.breakBits < 13 || bs.head? != some syncByte || !r.stops then .bad
  else if !rateFits r.rate then .rate
  else match bs with
    | _ :: h :: rest =>
      let data := rest.dropLast
      if rest.isEmpty then .bad
      else if withParity h ≠ h then .bad
      else if h.toNat / 16 % 4 ≠ x.num then .bad
      else match readReply x sent (h.toNat % 16) data with
        | none => .bad
        | some g => if endAroundSum (h :: rest) = 255 then .good g else .bad
    | _ => .bad

end Sys2Proof.Machine
end

