-- ==== Sys2Proof/Machine/Flags.lean ====
section
/-!
DEFINITION. Flag computations: sets held as bits, the marks of a journal detail (R195), the level and latched notices
and the ALERT line (R176 to R178), and the journal's owed sets and unread counts (R170, R171).
-/
namespace Sys2Proof.Machine

/-! ## Sets as bits -/

/-- Bit n of a set, made true or false. -/
def putBit {w : Nat} (v : BitVec w) (n : Nat) (b : Bool) : BitVec w :=
  if b then v ||| (1#w <<< n) else v &&& ~~~(1#w <<< n)

/-- A medium is in a set (R1). -/
def hasMedium (s : MediaSet) (m : Medium) : Bool := s.getLsbD m.num
/-- A class is in a set (R18, R116). -/
def hasClass (s : ClassSet) (c : Class) : Bool := s.getLsbD c.num
/-- An issuer is in a set (R18). -/
def hasIssuer (s : IssuerSet) (i : Issuer) : Bool := s.getLsbD i.num
/-- A lane is in a set (R1, R53). -/
def hasLane (s : LaneSet) (l : Lane) : Bool := s.getLsbD l.num
/-- A leaf profile is in a set (R151). -/
def hasLeaf (s : LeafSet) (p : LeafProfile) : Bool := s.getLsbD p.num

/-- A set given by a byte: empty or naming what is not there, it is none (R2, R51). -/
def givenSet3 (b : Byte) : Option (BitVec 3) :=
  if b.toNat = 0 ∨ b.toNat > 7 then none else some (b.extractLsb' 0 3)

/-! ## Marks (R195) -/

/-- The byte of marks: bit 0 passback, 1 entry gone, 2 list full, 3 inferred, 4 late, 5 desk pass. -/
def Marks.byte (m : Marks) : Byte :=
  putBit (putBit (putBit (putBit (putBit (putBit 0 0 m.passback) 1 m.entryGone) 2 m.listFull) 3 m.inferred) 4 m.late)
    5 m.deskPass

/-! ## Notices (R176 to R178) -/

/-- The latched notices; the others are level notices (R176). -/
def Notice.latched : Notice → Bool
  | .alarm | .lane | .bank | .loss | .stall | .clock => true
  | .replyReady | .journalPending | .callsPending => false

/-- The notices a port has: CALLS_PENDING is DISPATCH's alone (R176). -/
def Notice.isAt (n : Notice) (p : Port) : Bool :=
  match n with
  | .callsPending => p == .dispatch
  | _ => true

/-- The bits of the latched notices: ALARM to CLOCK, bits 3 to 8 (R193). -/
def latchedBits : BitVec 9 := 0x1F8

/-- The ALERT line is asserted exactly when the master mask is clear and an unmasked notice is set (R178). -/
def alertLine (set masked : BitVec 9) (master : Bool) : Bool := !master && (set &&& ~~~masked) != 0

/-- The notice unit works out its line at the end of every event it takes (R178). -/
def NoticeUnit.settle (u : NoticeUnit) : NoticeUnit := { u with alert := alertLine u.set u.masked u.master }

/-- A notice takes a value, and the line is worked out (R176, R177, R178). -/
def NoticeUnit.put (u : NoticeUnit) (n : Notice) (v : Bool) : NoticeUnit :=
  NoticeUnit.settle { u with set := putBit u.set n.num v }

/-! ## The journal's owed sets (R170 to R172) -/

/-- The record's owed set: the ports whose subscription set holds its kind (R170). -/
def owedSet (subs : PerPort KindSet) (r : Record) : PerPort Bool := subs.map (fun k => k.getLsbD r.code.kind)

/-- Some port is in the owed set. -/
def owedAny (o : PerPort Bool) : Bool := o.security || o.reception || o.dispatch

/-- A port's unread count: the records of the ring whose owed set names it (R171). -/
def unread (ring : List RingRec) (p : Port) : Nat := (ring.filter (fun r => r.owed.get p)).length

/-- The reports of the changes of the unread counts between 0 and above 0 (R176). -/
def pendingReports (before after : List RingRec) : List NoticeMsg :=
  Port.all.flatMap (fun p =>
    if (unread before p = 0) = (unread after p = 0) then []
    else [.level p .journalPending (decide (unread after p ≠ 0))])

end Sys2Proof.Machine
end

