-- ==== Sys2Proof/Machine/LaneOps.lean ====
section
/-!
DEFINITION. Operations of the lane sequencers that several commands share: places, windows and their ends, openings,
state changes, alarms, displays, and what every event at a lane ends with (R30, R31, R48 to R75).
-/
namespace Sys2Proof.Machine

/-! ## Reading a lane -/

/-- READY or SERVING: the states in which windows may be appended (R48). -/
def LaneState.inService : LaneState → Bool
  | .ready | .serving => true
  | _ => false

/-- In MASKED or ISOLATED: out of service, and not addressed (R48). -/
def LaneState.unaddressed : LaneState → Bool
  | .masked | .isolated => true
  | _ => false

/-- The directions a mode enables (R30). -/
def Mode.enables : Mode → Direction → Bool
  | .secured, _ => true
  | .entryOnly, d => d == .entry
  | .exitOnly, d => d == .exit
  | .closed, _ => false

/-- A lane's effective mode (R52). -/
def effectiveMode (s : State) (l : Lane) : Mode :=
  match (s.lane l).settings.source with
  | .bank => s.bank.mode
  | .own => (s.lane l).settings.mode

/-- The lane's effective mode enables a direction (R30). -/
def modeEnables (s : State) (l : Lane) (d : Direction) : Bool := (effectiveMode s l).enables d

/-- The reader head that serves a direction (00_scope.md). -/
def Direction.reader : Direction → Reader
  | .entry => .outer | .exit => .inner

/-- The direction a reader head serves (R28). -/
def readerDirection : Reader → Direction
  | .outer => .entry | .inner => .exit

/-- A slot record of a lane (R139). -/
def LineUnit.slot (u : LineUnit) : Slot → SlotRec
  | .outer => u.outer | .inner => u.inner | .drive => u.drive

/-- A change of one slot record. -/
def LineUnit.onSlot (u : LineUnit) (x : Slot) (f : SlotRec → SlotRec) : LineUnit :=
  match x with
  | .outer => { u with outer := f u.outer }
  | .inner => { u with inner := f u.inner }
  | .drive => { u with drive := f u.drive }

/-- The module of a slot holds an agreed profile and is in service (R139). -/
def agreedAt (s : State) (l : Lane) (x : Slot) : Bool := ((s.line l).slot x).status == .agreed

/-- The reader has a display that shows indications: agreed, and its profile has one (R73, R157). -/
def hasDisplay (s : State) (l : Lane) (rd : Reader) : Bool :=
  agreedAt s l rd.slot &&
    (match ((s.line l).slot rd.slot).profile with | some (.reader _ d) => d | _ => false)

/-- The lane's agreed leaf profile is OVERLAP_PAIR (R56, R157). -/
def overlapAgreed (s : State) (l : Lane) : Bool :=
  agreedAt s l .drive && ((s.line l).slot .drive).profile == some (.leaf .overlapPair)

/-- Places held at a lane: by its decision, by desk passes' lookups and by escort releases not yet decided (R31, R86). -/
def heldPlaces (s : State) (l : Lane) : Nat :=
  (if (s.lane l).decision.isSome then 1 else 0)
    + (Port.all.filter (fun p => match s.arbiter.desk.get p with | some d => d.lane == l | none => false)).length
    + (s.arbiter.second.filter (fun x => match x with | .release _ m => m == l | .lookup _ => false)).length

/-- A WAIT in RELEASE_PENDING for a lane (R82). -/
def pendingWaitAt (l : Lane) : EscortRec → Bool
  | .wait _ _ m _ .releasePending => m == l
  | _ => false

/-- Places promised at a lane: its reservation, and each RELEASE_PENDING WAIT for it (R31). -/
def promisedPlaces (s : State) (l : Lane) : Nat :=
  (if (s.lane l).reservation.isSome then 1 else 0) + (s.escort.list.filter (pendingWaitAt l)).length

/-- Free places: two less the windows and the held places (R31). -/
def freePlaces (s : State) (l : Lane) : Nat :=
  Config.placesPerLane - ((s.lane l).windows.length + heldPlaces s l)

/-- The window a tag names, if it is live (R71). -/
def findWindow (s : State) (t : Tag) : Option Window := (s.lane t.lane).windows.find? (fun w => w.tag == t)

/-- A change of one window of its lane's list. -/
def mapWindow (t : Tag) (f : Window → Window) (ws : List Window) : List Window :=
  ws.map (fun w => if w.tag == t then f w else w)

/-- A change of the window a tag names in a lane's list. -/
def onWindow (l : Lane) (t : Tag) (f : Window → Window) (s : State) : State :=
  s.onLane l (fun u => { u with windows := mapWindow t f u.windows })

/-- In QUEUED, ASSIGNING, PACED or OPEN: the states a withdrawal ends (R13, R52, R68, R135). -/
def WinState.beforeTransit : WinState → Bool
  | .queued | .assigning | .paced | .opened => true
  | .transit | .closing => false

/-! ## Displays (R73 to R75) -/

/-- A reader's display. -/
def LaneUnit.display (u : LaneUnit) : Reader → Display
  | .outer => u.outer | .inner => u.inner

/-- A change of one display. -/
def LaneUnit.onDisplay (u : LaneUnit) (rd : Reader) (f : Display → Display) : LaneUnit :=
  match rd with
  | .outer => { u with outer := f u.outer }
  | .inner => { u with inner := f u.inner }

/-- An indication is requested for a reader's display; within one event only the last request is taken (R73). -/
def ask (l : Lane) (rd : Reader) (i : Indication) (s : State) : State :=
  s.onLane l (fun u => u.onDisplay rd (fun d => { d with asked := some i }))

/-- An indication is requested on both displays (R75). -/
def askBoth (l : Lane) (i : Indication) (s : State) : State := ask l .inner i (ask l .outer i s)

/-- The escort unit's indications go to the outer display, and only while the lane is READY or SERVING (R94). -/
def askEscort (l : Lane) (i : Indication) (s : State) : State :=
  if (s.lane l).state.inService then ask l .outer i s else s

/-- A reader's pending SHOW (R146). -/
def LineUnit.setShow (u : LineUnit) (rd : Reader) (i : Option Indication) : LineUnit :=
  match rd with
  | .outer => { u with showOuter := i }
  | .inner => { u with showInner := i }

/-- An indication is shown: it becomes the reader's pending SHOW, and the hold timer starts (R73). -/
def showNow (l : Lane) (rd : Reader) (i : Indication) (s : State) : State :=
  let due := s.after Config.displayHold
  (s.onLane l (fun u => u.onDisplay rd (fun d => { d with shown := some i, holdDue := some due, waiting := none }))).onLine l
    (fun u => u.setShow rd (some i))

/-- The request left at the event's end is taken: shown, or waiting while the hold timer runs, or discarded for a
reader that has no display or is not agreed (R73). -/
def settleDisplay (l : Lane) (rd : Reader) (s : State) : State :=
  match ((s.lane l).display rd).asked with
  | none => s
  | some i =>
    let shown := hasDisplay s l rd
    let held := ((s.lane l).display rd).holdDue.isSome
    let s := s.onLane l (fun u => u.onDisplay rd (fun d => { d with asked := none }))
    if !shown then s
    else if held then s.onLane l (fun u => u.onDisplay rd (fun d => { d with waiting := some i }))
    else showNow l rd i s

/-- A display's queue is cleared, with the SHOW not yet sent (R74). That its hold timer stops, and that the indication shown
is forgotten, is the model's choice (log entry 44). -/
def clearDisplay (l : Lane) (rd : Reader) (s : State) : State :=
  (s.onLane l (fun u => u.onDisplay rd (fun _ => Display.reset))).onLine l (fun u => u.setShow rd none)

/-- Both display queues are cleared (R74). -/
def clearDisplays (l : Lane) (s : State) : State := clearDisplay l .inner (clearDisplay l .outer s)

/-! ## Ends of windows (R70, R75) -/

/-- The window in CLOSING with its outcome, its open and transit timers stopped (R70). -/
def Window.ended (o : WinOutcome) (w : Window) : Window :=
  { w with state := .closing, outcome := some o, openDue := none, transitDue := none }

/-- What the display shows after a window ended PASSED or UNUSED: GO for another window of its direction in OPEN,
WAIT for one in QUEUED, ASSIGNING or PACED, otherwise BLANK (R75). -/
def restIndication (ws : List Window) (d : Direction) : Indication :=
  if ws.any (fun w => w.dir == d && w.state == .opened) then .go
  else if ws.any (fun w => w.dir == d && (w.state == .queued || w.state == .assigning || w.state == .paced)) then .wait
  else .blank

/-- The indication for the end of a window of the lane (R75). -/
def askEnd (l : Lane) (w : Window) (o : WinOutcome) (s : State) : State :=
  match o with
  | .passed | .unused => ask l w.dir.reader (restIndication (s.lane l).windows w.dir) s
  | .withdrawn | .stalled | .faulted | .aborted => ask l w.dir.reader .stop s
  | .overtaken => s

/-- A window of the lane reaches its outcome: it goes to CLOSING, its posting is claimed, and its display follows (R70, R75).
A window in CLOSING takes no outcome again. -/
def endWindow (l : Lane) (w : Window) (o : WinOutcome) (s : State) : State :=
  if w.state = .closing then s else
  askEnd l w o (claimFirst (.posting ⟨w.tag, w.cred, w.dir, o⟩) (onWindow l w.tag (Window.ended o) s))

/-- Each window in a list ends with the outcome, unless it is in CLOSING. -/
def endWindows (l : Lane) (o : WinOutcome) : List Window → State → State
  | [], s => s
  | w :: r, s => endWindows l o r (endWindow l w o s)

/-- The windows of a lane that satisfy `p` end with the outcome. -/
def endWhere (l : Lane) (p : Window → Bool) (o : WinOutcome) (s : State) : State :=
  endWindows l o ((s.lane l).windows.filter p) s

/-- Every window not in CLOSING ends with the outcome (R49, R53, R77, R78, R128). -/
def endAll (l : Lane) (o : WinOutcome) (s : State) : State := endWhere l (fun _ => true) o s

/-! ## Reservations (R46, R47) -/

/-- The LANE record of an ended reservation (R47). -/
def reservationRecord (l : Lane) (st : Status) (s : State) : State :=
  handOver (.sequencer l)
    { time := s.stamp, code := .lane .reservationEnded, lane := some l, detail := .items {} (b1 st.num) } s

/-- The lane's reservation, if one waits and `p` holds of it, is answered and ends (R47). -/
def endReservation (l : Lane) (p : Reservation → Bool) (st : Status) (body : List Byte) (s : State) : State :=
  match (s.lane l).reservation with
  | some r =>
    if p r then
      reservationRecord l st (answer r.port st body (s.onLane l (fun u => { u with reservation := none })))
    else s
  | none => s

/-! ## State changes (R48) -/

/-- The clear timer, awaiting reset and the told restore end with the state they belong to; the obstruction timer runs
in READY, SERVING and ALARM alone, and starts with READY when the obstruction is on; the travel direction ends with
READY and SERVING (R55, R67, R69, R128, R133). -/
def LaneUnit.enter (new : LaneState) (obstructAt : Nat) (u : LaneUnit) : LaneUnit :=
  let timed := new == .ready || new == .serving || new == .alarm
  { u with
    state := new
    travel := if new.inService then u.travel else none
    obstructDue :=
      if !timed then none
      else if new == .ready && u.obstruction && u.obstructDue.isNone then some obstructAt
      else u.obstructDue
    acknowledged := if u.state = .alarm then false else u.acknowledged
    awaitingReset := if u.state = .alarm then false else u.awaitingReset
    clearDue := if u.state = .alarm ∨ u.state = .free then none else u.clearDue
    restoring := if u.state = .free then false else u.restoring }

/-- A LANE record and the LANE notice of each port for a change of lane state (R48). -/
def recordState (l : Lane) (former new : LaneState) (s : State) : State :=
  notifyAll .lane (handOver (.sequencer l)
    { time := s.stamp, code := .lane (.state new), lane := some l, detail := .items {} (b1 former.num) } s)

/-- A change of lane state: its record and notice unless between READY and SERVING or into ALARM, which makes its own
(R48, R68), its report to the bank safety unit (R125), and the end of a reservation when the lane leaves READY and
SERVING (R47: OVERTAKEN for FREE, otherwise LANE_STATE with the new state). -/
def changeState (l : Lane) (new : LaneState) (s : State) : State :=
  let former := (s.lane l).state
  if former = new then s else
  let s := report l (.changed former new) (s.onLane l (fun u => u.enter new (s.after Config.obstructionLimit)))
  let s := if (former.inService && new.inService) || new == .alarm then s else recordState l former new s
  if new.inService then s
  else if new = .free then endReservation l (fun _ => true) .overtaken [] s
  else endReservation l (fun _ => true) .laneState (b1 new.num) s

/-! ## From QUEUED to OPEN (R56 to R59) -/

/-- A window goes OPEN: its open timer starts, the travel direction is its own, an ENTRY window sets the pace mark,
and GO is shown (R59, R75). -/
def openWindow (l : Lane) (w : Window) (s : State) : State :=
  let due := s.after ((s.lane l).settings.openTime * 1000)
  let s := onWindow l w.tag (fun x => { x with state := .opened, openDue := some due, transitDue := none }) s
  let s := s.onLane l (fun u =>
    { u with travel := some w.dir, paceMark := if w.dir = .entry then some s.time else u.paceMark })
  ask l w.dir.reader .go s

/-- The active action the lane last took paces an ENTRY window now: less than the pace interval has passed since the
lane's pace mark (R58, R120). The interval is the current one, where R167 fixes a length at the start (log entry 46). -/
def paceHolds (s : State) (l : Lane) (d : Direction) : Bool :=
  match d, (s.lane l).action, (s.lane l).paceMark with
  | .entry, .pace _ i, some m => decide (s.time < m + i)
  | _, _, _ => false

/-- The pace test: PACED, or OPEN (R58). -/
def paceTest (l : Lane) (w : Window) (s : State) : State :=
  if paceHolds s l w.dir then
    ask l w.dir.reader .wait (onWindow l w.tag (fun x => { x with state := .paced }) s)
  else openWindow l w s

/-- The call is not settled (R57). -/
def CallState.owed : CallState → Bool
  | .posted | .taken => true
  | _ => false

/-- An eligible window leaves QUEUED: to ASSIGNING with hold-for-car on and its call POSTED or TAKEN, otherwise to the
pace test (R57). -/
def startWindow (l : Lane) (w : Window) (s : State) : State :=
  if s.dispatch.holdForCar && w.call.owed then
    ask l w.dir.reader .wait (onWindow l w.tag (fun x => { x with state := .assigning }) s)
  else paceTest l w s

/-- The eligibility of a QUEUED window (R56). -/
def eligible (u : LaneUnit) (overlap : Bool) (t : Tag) : Bool :=
  match u.windows with
  | [] => false
  | h :: r =>
    if h.tag == t then h.state == .queued && (u.travel == none || u.travel == some h.dir)
    else match r with
      | [] => false
      | w :: _ => w.tag == t && w.state == .queued && w.dir == h.dir && overlap &&
          ((h.state == .transit && h.pastLeaf) || h.state == .closing)

/-- Each window in turn is tested, and an eligible one leaves QUEUED (R56). -/
def settleWindows (l : Lane) : List Window → State → State
  | [], s => s
  | w :: r, s =>
    settleWindows l r (if eligible (s.lane l) (overlapAgreed s l) w.tag then startWindow l w s else s)

/-- A window in ASSIGNING leaves it for the pace test (R57, R103, R106). -/
def leaveAssigning (l : Lane) (w : Window) (s : State) : State := if w.state = .assigning then paceTest l w s else s

/-! ## What every event at a lane ends with -/

/-- No window in OPEN or TRANSIT (R55). -/
def LaneUnit.noneMoving (u : LaneUnit) : Bool :=
  u.windows.all (fun w => w.state != .opened && w.state != .transit)

/-- Every zone is EMPTY (R55). -/
def Zones.empty (z : Zones) : Bool := !z.outer && !z.leaf && !z.inner

/-- The travel direction becomes NONE with no window in OPEN or TRANSIT and every zone EMPTY (R55). -/
def settleTravel (l : Lane) (s : State) : State :=
  s.onLane l (fun u => if u.noneMoving && u.zones.empty then { u with travel := none } else u)

/-- The conditions of the clear timer: of an alarm (R69) or of a restore (R133). -/
def LaneUnit.clearing (u : LaneUnit) : Bool :=
  u.zones.empty && !u.obstruction &&
    ((u.state == .alarm && u.windows.isEmpty) || (u.state == .free && u.restoring))

/-- The clear timer starts or stops at the end of an event (R69, R133). -/
def LaneUnit.settleClear (now : Nat) (u : LaneUnit) : LaneUnit :=
  if u.state = .alarm ∨ u.state = .free then
    if u.clearing then
      (if u.clearDue.isNone && !u.awaitingReset then { u with clearDue := some (now + u.settings.clearTime * 1000) } else u)
    else { u with clearDue := none, awaitingReset := false }
  else u

/-- The wanted leaf command (R55). -/
def wantedCommand (u : LaneUnit) (driveAgreed : Bool) : Option LeafCmd :=
  match u.state with
  | .ready | .serving =>
    match u.windows.find? (fun w => w.state == .opened || w.state == .transit) with
    | some w => if w.dir = .entry then some .openIn else some .openOut
    | none => some .close
  | .alarm => some .hold
  | .free => some .holdOpen
  | .enumerating => if driveAgreed then some .close else none
  | .masked | .isolated | .fault => none

/-- The wanted command is worked out again; a change makes it the pending LEAF_CMD, or discards it (R55, R145). A stored
leaf position that differs from it makes no command pending again: the model's choice (log entry 45). -/
def settleWanted (l : Lane) (s : State) : State :=
  let c := wantedCommand (s.lane l) (agreedAt s l .drive)
  if c = (s.lane l).wanted then s
  else (s.onLane l (fun u => { u with wanted := c })).onLine l (fun u => { u with pendingCmd := c })

/-- The end of every event a lane sequencer takes: the travel direction, eligibility and opening, the clear timer, the
wanted leaf command and the displays (R55, R56, R69, R73, R133). -/
def endEvent (l : Lane) (s : State) : State :=
  let s := settleTravel l s
  let s := if (s.lane l).state.inService then settleWindows l (s.lane l).windows s else s
  let s := s.onLane l (LaneUnit.settleClear s.time)
  let s := settleWanted l s
  settleDisplay l .inner (settleDisplay l .outer s)

/-! ## Offering places (R72) -/

/-- The WAIT of a visitor goes to another phase (R82). -/
def setPhase (visitor : Cred) (ph : WaitPhase) (list : List EscortRec) : List EscortRec :=
  list.map (fun r => match r with
    | .wait v sp l st p => if v == visitor then .wait v sp l st ph else .wait v sp l st p
    | c => c)

/-- A change of the escort list. -/
def onEscort (f : List EscortRec → List EscortRec) (s : State) : State :=
  { s with escort := { s.escort with list := f s.escort.list } }

/-- One free place is offered: first to the reservation, then to the oldest RELEASE_PENDING WAIT of the lane (R31,
R47, R72, R86). -/
def offerPlace (l : Lane) (s : State) : State :=
  if freePlaces s l = 0 ∨ !(s.lane l).state.inService then s else
  match (s.lane l).reservation with
  | some r =>
    (s.onLane l (fun u => { u with reservation := none })).onArbiter
      (fun a => { a with desk := a.desk.set r.port (some ⟨r.cred, l, r.dir, true⟩) })
  | none =>
    if !modeEnables s l .entry then s else
    match s.escort.list.find? (pendingWaitAt l) with
    | some (.wait v _ _ _ _) => claimSecond (.release v l) (onEscort (setPhase v .releasing) s)
    | _ => s

/-- The lane's free places are offered: it has two at most (R31, R72). -/
def offerPlaces (l : Lane) (s : State) : State := offerPlace l (offerPlace l s)

/-! ## Alarms (R68, R69) -/

/-- The lane's counter for an alarm reason goes up by one (R68, R76). -/
def Counters.alarm (c : Counters) : AlarmReason → Counters
  | .tailgate => { c with tailgate := saturate c.tailgate }
  | .intrusion => { c with intrusion := saturate c.intrusion }
  | .loiter => { c with loiter := saturate c.loiter }
  | .obstructed => { c with obstruct := saturate c.obstruct }

/-- An alarm reason is raised in READY, SERVING or ALARM (R68). -/
def raiseAlarm (l : Lane) (r : AlarmReason) (s : State) : State :=
  let s := endWhere l (fun w => w.state.beforeTransit) .withdrawn s
  let s := changeState l .alarm s
  let s := s.onLane l (fun u =>
    { u with counters := u.counters.alarm r, acknowledged := false, clearDue := none, alarmReason := some r })
  notifyAll .alarm (handOver (.sequencer l) { time := s.stamp, code := .alarm r, lane := some l }
    (askBoth l .stop s))

/-- A lane comes back to READY from ALARM or FREE: BLANK on both displays, its free places offered (R69, R72, R133). -/
def backToReady (l : Lane) (s : State) : State := offerPlaces l (askBoth l .blank (changeState l .ready s))

/-- A count at a lane: the counters of a lane out of service are held at their values (R76, log entry 34). -/
def LaneUnit.count (f : Counters → Counters) (u : LaneUnit) : LaneUnit :=
  { u with counters := if u.state.unaddressed then u.counters else f u.counters }

/-- One is added to a lane's denial counter (R41, R76, R147). -/
def countDenial (l : Lane) (s : State) : State :=
  s.onLane l (LaneUnit.count (fun c => { c with denial := saturate c.denial }))

/-- One is added to a lane's line-error counter (R76, R143). -/
def countLineError (l : Lane) (s : State) : State :=
  s.onLane l (LaneUnit.count (fun c => { c with lineError := saturate c.lineError }))

/-! ## Windows made (R40, R54, R101) -/

/-- The call queue takes a new value, with the report of a change between empty and not empty (R99, R176). -/
def setCalls (q : List CallRec) (s : State) : State :=
  let s' := { s with dispatch := { s.dispatch with queue := q } }
  if s.dispatch.queue.isEmpty = q.isEmpty then s' else reportLevel .dispatch .callsPending (!q.isEmpty) s'

/-- One is added to the call loss counter (R108). -/
def countLoss (s : State) : State := { s with dispatch := { s.dispatch with loss := saturate s.dispatch.loss } }

/-- A CALL is wanted (R101). -/
def callWanted (s : State) (e : Entry) (d : Direction) : Bool :=
  s.dispatch.dispatch && d == .entry && e.floor.isSome

/-- The call state of a new window (R101). -/
def newCallState (s : State) (e : Entry) (d : Direction) : CallState :=
  if !callWanted s e d then .none
  else if s.dispatch.queue.length < Config.callCapacity then .posted
  else .notPosted

/-- The window a creation appends (R40, R54, R101). -/
def newWindow (s : State) (l : Lane) (e : Entry) (d : Direction) (o : Origin) (mark : Bool) : Window :=
  { tag := ⟨l, (s.lane l).nextSerial⟩, cred := e.cred, cls := e.cls, dir := d, origin := o, state := .queued,
    created := s.stamp, retreats := 0, pastLeaf := false, passback := mark, call := newCallState s e d, car := none,
    outcome := none, openDue := none, transitDue := none,
    callDue := if newCallState s e d = .posted then some (s.after (s.dispatch.timeout * 1000)) else none,
    floor := e.floor }

/-- The dispatch unit's part of a creation (R101, R108): the CALL joins the queue, or is lost to a full one. -/
def postCall (w : Window) (s : State) : State :=
  match w.call, w.floor with
  | .posted, some f => setCalls (s.dispatch.queue ++ [.call w.tag w.cred f s.stamp]) s
  | .notPosted, some f =>
    indicate w.tag .seePanel (handOver .dispatch
      { time := s.stamp, code := .dispatch .callLost, lane := some w.tag.lane, tag := some w.tag, cred := some w.cred,
        detail := .items {} (b1 f) } (countLoss s))
  | _, _ => s

/-- A window is created: appended with the lane's next serial, its entry's claim set to its tag, its CALL posted, the
lane SERVING, WAIT asked for its display (R5, R40, R50, R54, R75, R101). -/
def createWindow (l : Lane) (e : Entry) (d : Direction) (o : Origin) (mark : Bool) (s : State) : State :=
  let w := newWindow s l e d o mark
  let s := postCall w s
  let s := s.onLane l (fun u => { u with windows := u.windows ++ [w], nextSerial := u.nextSerial + 1 })
  let s := onEntry e.cred (fun x => { x with claim := some (.window w.tag) }) s
  ask l d.reader .wait (changeState l .serving s)

end Sys2Proof.Machine
end

