-- ==== Sys2Proof/Machine/Replies.lean ====
section
/-!
DEFINITION. The bodies of the replies (R16, R19, R79, R96, R102, R109, R115, R122, R137, R166, R173, R175, R179, R194,
R195) and the sixteen bytes of a journal record (R195). Where R193 gives general rules only, log entry 7 gives the layout.
-/
namespace Sys2Proof.Machine

/-! ## Items -/

/-- A tag: the lane, then the serial (R193). -/
def tagBytes (t : Tag) : List Byte := [BitVec.ofNat 8 t.lane.num, t.serial]

/-- A time that may be UNSET: its four bytes are 0 then (R194). -/
def Stamp.bytes : Stamp → List Byte
  | .unset => [0, 0, 0, 0]
  | .time v => b4 v

/-- Whether a time is the UNSET marker. -/
def Stamp.isUnset : Stamp → Bool
  | .unset => true
  | .time _ => false

/-- An optional item: nothing when absent. -/
def optBytes {α : Type} (f : α → List Byte) : Option α → List Byte
  | some a => f a
  | none => []

/-! ## The entry image (R16, R194) -/

/-- The attributes of an entry: bytes A to D and each present field (R194). -/
def attributeBytes (e : Entry) : List Byte :=
  BitVec.ofNat 8 (e.cls.num * 64 + e.directions.num * 16 + e.passback.num * 4 + e.suspended.toNat * 2 + e.responder.toNat)
  :: BitVec.ofNat 8 (e.side.num * 8 + e.media.toNat)
  :: e.lanes
  :: BitVec.ofNat 8 (e.validFrom.isSome.toNat + e.validUntil.isSome.toNat * 2 + e.uses.isSome.toNat * 4
      + e.sponsor.isSome.toNat * 8 + e.floor.isSome.toNat * 16)
  :: (optBytes b4 e.validFrom ++ optBytes b4 e.validUntil ++ optBytes b1 e.uses ++ optBytes b4 e.sponsor
      ++ optBytes b1 e.floor)

/-- The live claim: kind (0 absent, 1 window, 2 WAIT) and tag, 0 unless the kind is window (R194). -/
def claimBytes : Option Claim → List Byte
  | none => [0, 0, 0]
  | some (.window t) => 1 :: tagBytes t
  | some .wait => [2, 0, 0]

/-- The last passage: flags (bit 0 present, bit 1 time UNSET), time, lane, direction (R194). The six bytes after the flags of
an absent one are 0: the model's choice (log entry 7). -/
def lastBytes : Option LastPassage → List Byte
  | none => [0, 0, 0, 0, 0, 0, 0]
  | some p => BitVec.ofNat 8 (1 + p.time.isUnset.toNat * 2) :: p.time.bytes ++ b1 p.lane.num ++ b1 p.dir.num

/-- The QUERY_ENTRY body (R16, R194). -/
def entryBody (e : Entry) : List Byte :=
  b4 e.cred ++ attributeBytes e ++ b1 e.issuer.num ++ b1 e.refs ++ claimBytes e.claim ++ lastBytes e.last

/-- The walker's state: IDLE, PURGE, FORCED_REVOKE or SWEEP (R19). -/
def walkerNum : Option Walk → Nat
  | none => 0
  | some (.purge ..) => 1
  | some (.forcedRevoke ..) => 2
  | some (.sweep ..) => 3

/-- The TABLE_STATUS body (R19). -/
def tableBody (t : TableUnit) : List Byte :=
  b2 t.entries.length ++ b2 t.receptionCount ++ b2 t.quota ++ b1 (walkerNum t.walk) ++ [yes t.waiting.isSome]

/-! ## Lane replies (R76, R79) -/

/-- A profile in a detail or a status slot: a leaf profile's number, or a reader's media in bits 0 to 2 with its display
flag in bit 7. No rule gives this byte: it is the model's choice (log entry 7; R79, R156). -/
def Profile.byte : Profile → Byte
  | .leaf p => BitVec.ofNat 8 p.num
  | .reader m d => BitVec.ofNat 8 (m.toNat + d.toNat * 128)

/-- A slot: its status; the agreed profile, or the refusal reason, or 0xFF; whether the profile was inferred (R79, R139). -/
def slotBytes (r : SlotRec) : List Byte :=
  let second : Byte :=
    match r.status, r.profile, r.refusal with
    | .agreed, some p, _ => p.byte
    | .refused, _, some x => BitVec.ofNat 8 x.num
    | _, _, _ => 0xFF
  [BitVec.ofNat 8 r.status.num, second, yes r.inferred]

/-- A window in LANE_STATUS (R79). -/
def windowBytes (w : Window) : List Byte :=
  tagBytes w.tag ++ b1 w.dir.num ++ b1 w.origin.num ++ b1 w.state.num
    ++ [BitVec.ofNat 8 (w.created.isUnset.toNat + w.car.isSome.toNat * 2)] ++ w.created.bytes ++ b1 w.call.num
    ++ optBytes b1 w.car

/-- The travel direction: ENTRY, EXIT, NONE (R55). -/
def travelNum : Option Direction → Nat
  | some d => d.num
  | none => 2

/-- The reservation: whether one waits, with its port and direction (R79). -/
def reservationBytes : Option Reservation → List Byte
  | none => [0]
  | some r => 1 :: b1 r.port.num ++ b1 r.dir.num

/-- The last alarm reason, 0xFF when there was none. -/
def reasonByte : Option AlarmReason → Byte
  | some r => BitVec.ofNat 8 r.num
  | none => 0xFF

/-- The LANE_STATUS body; a MASKED lane gives its state alone (R79). -/
def laneBody (s : State) (l : Lane) : List Byte :=
  let u := s.lane l
  let n := s.line l
  if u.state = .masked then b1 u.state.num else
  b1 u.state.num
    ++ (if u.state = .alarm then [reasonByte u.alarmReason, yes u.awaitingReset] else [])
    ++ b1 (effectiveMode s l).num ++ b1 u.settings.source.num
    ++ b1 u.settings.openTime ++ b1 u.settings.transitLimit ++ b1 u.settings.clearTime ++ [yes u.settings.alarmLatch]
    ++ slotBytes n.outer ++ slotBytes n.inner ++ slotBytes n.drive
    ++ b1 u.leafPos.num ++ [yes u.zones.outer, yes u.zones.leaf, yes u.zones.inner] ++ [yes u.obstruction]
    ++ b1 (travelNum u.travel)
    ++ b1 u.windows.length ++ u.windows.flatMap windowBytes
    ++ b1 (heldPlaces s l) ++ reservationBytes u.reservation ++ [u.nextSerial]

/-- The six counters (R76). -/
def countersBody (c : Counters) : List Byte :=
  b1 c.denial ++ b1 c.tailgate ++ b1 c.intrusion ++ b1 c.loiter ++ b1 c.obstruct ++ b1 c.lineError

/-! ## Escort and dispatch replies -/

/-- A record's age in whole seconds (R96). -/
def ageSeconds (now started : Nat) : Nat := (now - started) / 1000

/-- An escort record in ESCORT_STATUS: kind, sponsor, lane, age, and for a WAIT the visitor and the phase (R96). -/
def escortBytes (now : Nat) : EscortRec → List Byte
  | .wait v sp l st ph => 0 :: b4 sp ++ b1 l.num ++ b2 (ageSeconds now st) ++ b4 v ++ b1 ph.num
  | .credit sp l st => 1 :: b4 sp ++ b1 l.num ++ b2 (ageSeconds now st)

/-- The ESCORT_STATUS body (R96). -/
def escortBody (s : State) (position : Nat) : List Byte :=
  let chosen := (s.escort.list.drop position).take 4
  b2 s.escort.interval ++ b1 s.escort.list.length ++ b1 chosen.length ++ chosen.flatMap (escortBytes s.time)

/-- A call record: CALL is 13 bytes, CANCEL 3 (R195). -/
def callBytes : CallRec → List Byte
  | .call t c f posted => 0 :: tagBytes t ++ b4 c ++ b1 f ++ [yes posted.isUnset] ++ posted.bytes
  | .cancel t => 1 :: tagBytes t

/-- The TAKE_CALLS body: the number of records left, then those taken (R102, R195). -/
def callsBody (left : Nat) (taken : List CallRec) : List Byte := b1 left ++ taken.flatMap callBytes

/-- A CALL record (R99). -/
def CallRec.isCall : CallRec → Bool
  | .call .. => true
  | .cancel _ => false

/-- The live windows of the bank (R109). -/
def allWindows (s : State) : List Window := Lane.all.flatMap (fun l => (s.lane l).windows)

/-- The number of live windows in a call state (R109). -/
def callCount (s : State) (c : CallState) : Nat := ((allWindows s).filter (fun w => w.call == c)).length

/-- The DISPATCH_STATUS body (R109). -/
def dispatchBody (s : State) : List Byte :=
  let d := s.dispatch
  [yes d.dispatch, yes d.holdForCar] ++ b1 d.timeout ++ b1 d.queue.length
    ++ b1 (d.queue.filter CallRec.isCall).length ++ b1 (d.queue.filter (fun r => !r.isCall)).length
    ++ b1 (callCount s .posted) ++ b1 (callCount s .taken) ++ b1 (callCount s .timedOut) ++ b1 (callCount s .answered)
    ++ b1 d.loss

/-! ## Occupancy replies -/

/-- The total of the head counts (R111). -/
def HeadCounts.total (c : HeadCounts) : Nat := c.staff + c.contractor + c.visitor

/-- The COUNTS body (R115). -/
def countsBody (o : OccupancyUnit) : List Byte :=
  b2 o.counts.staff ++ b2 o.counts.contractor ++ b2 o.counts.visitor ++ b3 o.counts.total ++ [yes o.uncertain]

/-! ## Safety, clock, journal and notice replies -/

/-- The set of lanes in a state. -/
def lanesIn (s : State) (st : LaneState) : LaneSet :=
  Lane.all.foldl (fun v l => putBit v l.num ((s.lane l).state == st)) 0

/-- The taken level: CALLED, NOT_CALLED (R125). -/
def levelByte (called : Bool) : Byte := if called then 0 else 1

/-- The SAFETY_STATUS body (R137). -/
def safetyBody (s : State) : List Byte :=
  let f := s.safety
  [levelByte f.called, yes f.debounceDue.isSome, BitVec.ofNat 8 f.egress.num, yes f.overtake, yes f.releaseWaiting,
    yes f.restorePermitted, yes f.needsRequest, yes f.lockdown, lanesIn s .free]

/-- The clock's flag: SET, UNSET (R161). -/
def flagByte (set : Bool) : Byte := if set then 0 else 1

/-- The READ_CLOCK body (R166). -/
def clockBody (c : ClockUnit) : List Byte :=
  b4 c.secs ++ [flagByte c.set] ++ b1 c.source.num ++ b1 c.disagree

/-- A two-byte set (R193). -/
def setBytes {w : Nat} (v : BitVec w) : List Byte := b2 v.toNat

/-- The READ_NOTICES body: the notices, then the masks with the master mask at bit 9; REPLY_READY is reported clear
(R179, R193). At SECURITY and RECEPTION, which have no CALLS_PENDING, its bits read as clear and masked: the model's choice
(log entry 47). -/
def noticesBody (u : NoticeUnit) : List Byte :=
  setBytes (putBit u.set 0 false) ++ b2 (u.masked.toNat + u.master.toNat * 512)

/-- The notice masks with the master mask at bit 9 (R180, R193); CALLS_PENDING's bit at a port without it reads as masked (log
entry 47). -/
def masksBody (u : NoticeUnit) : List Byte := b2 (u.masked.toNat + u.master.toNat * 512)

/-! ## Journal records (R195) -/

/-- The class field of byte 0: 3 when absent (R195). -/
def classCode : Option Class → Nat
  | some c => c.num
  | none => 3

/-- The direction field of byte 0: 0 absent, 1 ENTRY, 2 EXIT (R195). -/
def directionCode : Option Direction → Nat
  | none => 0
  | some d => d.num + 1

/-- The lane field of byte 1: 15 when absent (R195). -/
def laneCode : Option Lane → Nat
  | some l => l.num
  | none => 15

/-- The origin in bits 7-6 of byte 12: 1 PRESENTATION, 2 ESCORT_RELEASE, 3 DESK_PASS (R195). -/
def originCode : Option Origin → Nat
  | none => 0
  | some o => o.num + 1

/-- The first `n` bytes of a list, with zeros after its end. -/
def padTo (n : Nat) (bs : List Byte) : List Byte := (bs ++ List.replicate n 0).take n

/-- Bytes 8 to 15 of a record (R195). A detail byte that no item fills is 0: the model's choice (log entry 7). -/
def detailBytes (r : Record) : List Byte :=
  let credential := b4 (r.cred.getD 0)
  match r.detail with
  | .none => credential ++ [BitVec.ofNat 8 (originCode r.origin * 64), 0, 0, 0]
  | .cred c => credential ++ b4 c
  | .clock v _ => credential ++ b4 v
  | .bank items => padTo 8 items
  | .items m bytes =>
    credential ++ (m.byte ||| BitVec.ofNat 8 (originCode r.origin * 64)) :: padTo 3 bytes

/-- The former flag is UNSET: CLOCK records only (R195). -/
def Detail.formerUnset : Detail → Bool
  | .clock _ f => f
  | _ => false

/-- The record has a detail (R195). -/
def Detail.present : Detail → Bool
  | .none => false
  | _ => true

/-- A journal record in sixteen bytes (R195). Byte 7 of a record with no tag is 0: the model's choice (log entry 7). -/
def recordBytes (r : Record) : List Byte :=
  BitVec.ofNat 8 (r.code.kind * 16 + classCode r.cls * 4 + directionCode r.dir)
  :: BitVec.ofNat 8 (r.time.isUnset.toNat * 128 + r.tag.isSome.toNat * 64 + r.detail.present.toNat * 32
      + r.detail.formerUnset.toNat * 16 + laneCode r.lane)
  :: BitVec.ofNat 8 r.code.num
  :: r.time.bytes ++ [match r.tag with | some t => t.serial | none => 0] ++ detailBytes r

/-- The READ_JOURNAL body: the unread count left, then the records (R173, R195). -/
def journalBody (left : Nat) (taken : List RingRec) : List Byte :=
  b2 left ++ taken.flatMap (fun r => recordBytes r.record)

end Sys2Proof.Machine
end

