-- ==== Sys2Proof/Machine/Table.lean ====
section
/-!
DEFINITION. The commands taken at the Permit Table (01_the_permit_table.md): the table requests, the walk steps, amnesty,
postings and escort claim releases. Each is taken when the arbiter's order gives it the turn (R10).
-/
namespace Sys2Proof.Machine

/-! ## Shared -/

/-- A port's request is taken at the table: it leaves the port, and the circle has served the port (R10, R11). -/
def takenAtTable (p : Port) (f : State → State) (s : State) : State := f (portServed p (takeRequest p s))

/-- A TABLE record (R169, R195). -/
def tableRecord (c : TableCode) (cred : Option Cred) (d : Detail) (s : State) : State :=
  handOver .table { time := s.stamp, code := .table c, cred := cred, detail := d } s

/-- A TABLE record's count (R18, R21, R195). -/
def countDetail (n : Nat) : Detail := .items {} (b2 n)

/-- An entry that requests answer: present and not in removal by a walk (R12, R14, R16, R17). -/
def standingEntry (s : State) (c : Cred) : Option Entry :=
  match s.entry c with
  | some e => if e.inRemoval then none else some e
  | none => none

/-- A field of a byte. -/
def field (b : Byte) (low width : Nat) : Nat := b.toNat / 2 ^ low % 2 ^ width

/-- The shape every entry has (R1, R2). A sponsor field of 0 or 4,294,967,295 is not tested here: no entry has such a
credential, so the model answers it NO_SPONSOR, where R2 leaves BAD_FIELD open (log entry 33). -/
def wellFormedEntry (e : Entry) : Bool :=
  Cred.valid e.cred && e.media != 0 && e.lanes != 0 &&
    (match e.validFrom, e.validUntil with | some f, some u => decide (f.toNat < u.toNat) | _, _ => true) &&
    (match e.floor with | some f => decide (f ≤ 127) | none => true) &&
    (e.sponsor.isNone || e.cls == .visitor)

/-- The entry an INSERT_ENTRY image gives, if the image is well formed (R2, R194). -/
def imageEntry (p : Port) (im : InsertImage) : Option Entry :=
  match Class.ofNum (field im.a 6 2), Directions.ofNum (field im.a 4 2), PassbackRule.ofNum (field im.a 2 2),
      Side.ofNum (field im.b 3 2) with
  | some cls, some dirs, some pb, some side =>
    let e : Entry :=
      { cred := im.cred, cls := cls, issuer := if p = .reception then .reception else .security,
        suspended := im.a.getLsbD 1, responder := im.a.getLsbD 0, media := im.b.extractLsb' 0 3, lanes := im.c,
        directions := dirs, passback := pb, validFrom := im.validFrom, validUntil := im.validUntil,
        uses := im.uses.map (·.toNat), sponsor := im.sponsor, floor := im.floor.map (·.toNat), side := side, refs := 0,
        claim := none, last := none, inRemoval := false }
    if im.b.toNat < 32 && im.d.toNat < 32 && wellFormedEntry e && e.uses != some 0 then some e else none
  | _, _, _, _ => none

/-- The checks of R8 on a sponsor named in a request. -/
def sponsorRefusal (s : State) (c : Cred) : Option Status :=
  match standingEntry s c with
  | some x => if x.cls ≠ .staff then some .noSponsor else if x.refs ≥ 255 then some .sponsorFull else none
  | none => some .noSponsor

/-- The withdraw option's part of a reply: whether a withdrawal was sent (R13). -/
def sentBody (asked sent : Bool) : List Byte := if asked then [yes sent] else []

/-- A referring entry is handled: its sponsor is cleared, it is suspended, one is taken from the sponsor's refs, and a
WAIT of it ends WITHDRAWN (R15, R18). -/
def handleReferring (e : Entry) (sponsor : Cred) (s : State) : State :=
  let s := dropRef sponsor (onEntry e.cred (fun x =>
    { x with sponsor := none, suspended := true, claim := if x.claim = some .wait then none else x.claim }) s)
  if e.claim = some .wait then tellEscort (.wait e.cred) s else s

/-- The walker takes another value. -/
def setWalk (w : Option Walk) (s : State) : State := s.onTable (fun t => { t with walk := w })

/-- The walk a request starts: it visits the entries present at its start (R18, R20). -/
def startOf (s : State) : WalkRequest → Walk
  | .purge cl is => .purge cl is .first (presentCreds s) 0
  | .forcedRevoke c w => .forcedRevoke c w false [] 0 false

/-- A walk is asked for: it starts when the walker is IDLE, otherwise it waits (R20). -/
def askWalk (q : WalkRequest) (s : State) : State :=
  match s.table.walk with
  | none => setWalk (some (startOf s q)) s
  | some _ => s.onTable (fun t => { t with waiting := some q })

/-- A walk ends: the walker is IDLE, and a waiting walk starts (R20). -/
def endWalk (s : State) : State :=
  match s.table.waiting with
  | none => setWalk none s
  | some q => s.onTable (fun t => { t with walk := some (startOf s q), waiting := none })

/-! ## Requests -/

/-- The checks of R11, in their order: the refusal, or the entry to add. -/
def insertCheck (s : State) (p : Port) (im : InsertImage) : Except Status Entry :=
  if p = .reception ∧ (Class.ofNum (field im.a 6 2) ≠ some .visitor ∨ im.a.getLsbD 0 = true) then .error .rights else
  match imageEntry p im with
  | none => .error .badField
  | some e =>
    if (s.entry e.cred).isSome || s.table.departed.any (fun d => d.cred == e.cred) then .error .duplicate
    else if s.table.entries.length ≥ Config.tableCapacity then .error .tableFull
    else if p = .reception ∧ s.table.receptionCount ≥ s.table.quota then .error .quotaFull
    else match e.sponsor.bind (sponsorRefusal s) with
      | some st => .error st
      | none => .ok e

/-- The entry joins the table (R4, R8, R11). -/
def addEntry (e : Entry) (s : State) : State :=
  let s := s.onTable (fun t =>
    { t with
      entries := insertSorted e t.entries
      receptionCount := if e.issuer = .reception then t.receptionCount + 1 else t.receptionCount })
  match e.sponsor with
  | some c => addRef c s
  | none => s

/-- INSERT_ENTRY at the table (R11). -/
def insertEntry (p : Port) (im : InsertImage) (s : State) : State :=
  match insertCheck s p im with
  | .error st => answer p st [] s
  | .ok e => answer p .ok [] (addEntry e s)

/-- INSERT_ENTRY (R11). -/
def execInsertEntry (p : Port) (s : State) : Host.Outcome State Fault Refusal :=
  running s (match tableRequest s p with
    | some (.insertEntry im) => takenAtTable p (insertEntry p im) s
    | _ => s)

/-- A named field's new value, or the old one; none when the byte names no value (R2, R12). -/
def newField {α : Type} (read : Byte → Option α) (old : α) : Option Byte → Option α
  | none => some old
  | some b => read b

/-- An optional field after a modify (R12). -/
def Change.apply {α β : Type} (f : α → β) (old : Option β) : Change α → Option β
  | .keep => old
  | .clear => none
  | .set v => some (f v)

/-- The entry as it would stand after a modify, if that is well formed (R2, R12). -/
def modified (e : Entry) (im : ModifyImage) : Option Entry :=
  (newField (fun b => Class.ofNum b.toNat) e.cls im.cls).bind fun cls =>
  (newField yesNo e.suspended im.suspended).bind fun sus =>
  (newField yesNo e.responder im.responder).bind fun res =>
  (newField givenSet3 e.media im.media).bind fun med =>
  (newField (fun b => Directions.ofNum b.toNat) e.directions im.directions).bind fun dirs =>
  (newField (fun b => PassbackRule.ofNum b.toNat) e.passback im.passback).bind fun pb =>
  let e' : Entry :=
    { e with
      cls := cls, suspended := sus, responder := res, media := med, lanes := im.lanes.getD e.lanes, directions := dirs,
      passback := pb, validFrom := im.validFrom.apply id e.validFrom, validUntil := im.validUntil.apply id e.validUntil,
      uses := im.uses.apply BitVec.toNat e.uses, sponsor := im.sponsor.apply id e.sponsor,
      floor := im.floor.apply BitVec.toNat e.floor }
  if !im.foreign && wellFormedEntry e' then some e' else none

/-- A RECEPTION modify is within its rights (R3). -/
def mayModify (p : Port) (e : Entry) (im : ModifyImage) : Bool :=
  p != .reception ||
    (e.issuer == .reception && im.responder != some 1 && (im.cls == none || im.cls == some 2))

/-- The checks of R12, in their order: the refusal, or the entry before and after. A sponsor named again is not new, and
an entry cannot be its own sponsor (log entry 10). -/
def modifyCheck (s : State) (p : Port) (im : ModifyImage) : Except Status (Entry × Entry) :=
  match standingEntry s im.cred with
  | none => .error .noEntry
  | some e =>
    if !mayModify p e im then .error .rights else
    match modified e im with
    | none => .error .badField
    | some e' =>
      match (if e'.sponsor = e.sponsor then none else e'.sponsor.bind (fun c =>
          if c = e.cred then some .noSponsor else sponsorRefusal s c)) with
      | some st => .error st
      | none =>
        if e.cls = .staff ∧ e'.cls ≠ .staff ∧ e.refs > 0 then .error .sponsorInUse else .ok (e, e')

/-- The refs move with a changed sponsor field (R8). -/
def moveRefs (former new : Option Cred) (s : State) : State :=
  if former = new then s else
  let s := match former with | some c => dropRef c s | none => s
  match new with | some c => addRef c s | none => s

/-- The modify is carried out (R12). -/
def applyModify (e e' : Entry) (s : State) : State :=
  let ends := e.sponsor ≠ e'.sponsor ∧ e.claim = some .wait
  let s := moveRefs e.sponsor e'.sponsor (onEntry e.cred (fun x =>
    { e' with refs := x.refs, claim := if ends then none else x.claim }) s)
  if ends then tellEscort (.wait e.cred) s else s

/-- MODIFY_ENTRY at the table (R12, R13). -/
def modifyEntry (p : Port) (im : ModifyImage) (s : State) : State :=
  match modifyCheck s p im with
  | .error st => answer p st [] s
  | .ok (e, e') =>
    let s := applyModify e e' s
    let r := if im.withdraw then withdrawClaim e.claim s else (s, false)
    answer p .ok (sentBody im.withdraw r.2) r.1

/-- MODIFY_ENTRY (R12). -/
def execModifyEntry (p : Port) (s : State) : Host.Outcome State Fault Refusal :=
  running s (match tableRequest s p with
    | some (.modifyEntry im) => takenAtTable p (modifyEntry p im) s
    | _ => s)

/-- The removal a revoke makes of an entry with refs 0: the removal, the withdrawal and the TABLE record (R13, R14). -/
def revokeNow (e : Entry) (withdraw : Bool) (s : State) : State × Bool :=
  let s := removeEntry e s
  let r := if withdraw then withdrawClaim e.claim s else (s, false)
  (tableRecord .revoked (some e.cred) .none r.1, r.2)

/-- The checks of R14: the refusal, or the entry to remove. R14 lists its refusals without a rank, and taking them in the
order of the list is the model's choice (log entry 32). -/
def revokeCheck (s : State) (p : Port) (c : Cred) (force : Bool) : Except Status Entry :=
  match standingEntry s c with
  | none => .error .noEntry
  | some e =>
    if p = .reception ∧ (e.issuer = .security ∨ force = true) then .error .rights
    else if e.refs > 0 ∧ force = false then .error .sponsorInUse
    else .ok e

/-- REVOKE_ENTRY at the table (R14). -/
def revokeEntry (p : Port) (c : Cred) (withdraw force : Bool) (s : State) : State :=
  match revokeCheck s p c force with
  | .error st => answer p st [] s
  | .ok e =>
    if e.refs > 0 then askWalk (.forcedRevoke c withdraw) s
    else
      let r := revokeNow e withdraw s
      answer p .ok (sentBody withdraw r.2) r.1

/-- REVOKE_ENTRY (R14). -/
def execRevokeEntry (p : Port) (s : State) : Host.Outcome State Fault Refusal :=
  running s (match tableRequest s p with
    | some (.revokeEntry c w f) => takenAtTable p (revokeEntry p c w f) s
    | _ => s)

/-- QUERY_ENTRY at the table (R16). -/
def queryEntry (p : Port) (c : Cred) (s : State) : State :=
  match standingEntry s c with
  | none => answer p .noEntry [] s
  | some e => answer p .ok (entryBody e) s

/-- QUERY_ENTRY (R16). -/
def execQueryEntry (p : Port) (s : State) : Host.Outcome State Fault Refusal :=
  running s (match tableRequest s p with
    | some (.queryEntry c) => takenAtTable p (queryEntry p c) s
    | _ => s)

/-- SET_SIDE at the table (R17). An absent entry is NO_ENTRY before a value above 2 is BAD_FIELD: R17 ranks neither first,
and the order is the model's choice (log entry 32). -/
def setSide (p : Port) (c : Cred) (b : Byte) (s : State) : State :=
  match standingEntry s c, Side.ofNum b.toNat with
  | none, _ => answer p .noEntry [] s
  | some _, none => answer p .badField [] s
  | some _, some x => answer p .ok [] (onEntry c (fun e => { e with side := x }) s)

/-- SET_SIDE (R17). -/
def execSetSide (p : Port) (s : State) : Host.Outcome State Fault Refusal :=
  running s (match tableRequest s p with
    | some (.setSide c b) => takenAtTable p (setSide p c b) s
    | _ => s)

/-- PURGE at the table: an empty set is BAD_FIELD, and so is one that names no member; otherwise the walk is asked for
(R18). -/
def purge (p : Port) (classes issuers : Byte) (s : State) : State :=
  if classes.toNat = 0 ∨ classes.toNat > 7 ∨ issuers.toNat = 0 ∨ issuers.toNat > 3 then answer p .badField [] s
  else askWalk (.purge (classes.extractLsb' 0 3) (issuers.extractLsb' 0 2)) s

/-- PURGE (R18). -/
def execPurge (p : Port) (s : State) : Host.Outcome State Fault Refusal :=
  running s (match tableRequest s p with
    | some (.purge c i) => takenAtTable p (purge p c i) s
    | _ => s)

/-- SET_QUOTA at the table (R19). -/
def setQuota (p : Port) (v : Nat) (s : State) : State :=
  if v > Config.quotaMax ∨ v < s.table.receptionCount then answer p .badField [] s
  else answer p .ok [] (s.onTable (fun t => { t with quota := v }))

/-- SET_QUOTA (R19). -/
def execSetQuota (p : Port) (s : State) : Host.Outcome State Fault Refusal :=
  running s (match tableRequest s p with
    | some (.setQuota v) => takenAtTable p (setQuota p v) s
    | _ => s)

/-- TABLE_STATUS (R19). -/
def execTableStatus (p : Port) (s : State) : Host.Outcome State Fault Refusal :=
  running s (match tableRequest s p with
    | some .tableStatus => takenAtTable p (fun t => answer p .ok (tableBody t.table) t) s
    | _ => s)

/-! ## The walker's steps (R15, R18, R20, R21) -/

/-- A walk's step is taken when the circle has come to the walker (R10). -/
def walkerStep (f : State → State) (s : State) : State := if hasTurn s .walker then served .walker (f s) else s

/-- A purge goes to its next pass, or to its final step, when the present pass has visited every entry (R18). The second
pass visits the entries present at its own start (log entry 6). -/
def settlePurge (s : State) : State :=
  match s.table.walk with
  | some (.purge cl is .first [] n) =>
    setWalk (some (.purge cl is (if presentCreds s = [] then .final else .second) (presentCreds s) n)) s
  | some (.purge cl is .second [] n) => setWalk (some (.purge cl is .final [] n)) s
  | _ => s

/-- An entry matches a purge's selector (R18). -/
def matchesPurge (cl : ClassSet) (is : IssuerSet) (e : Entry) : Bool := hasClass cl e.cls && hasIssuer is e.issuer

/-- The first pass reaches an entry: a match with refs 0 is removed and counted, another match is marked (R18). -/
def purgeFirstVisit (cl : ClassSet) (is : IssuerSet) (todo : List Cred) (n : Nat) (c : Cred) (s : State) : State :=
  let rest := todo.filter (· != c)
  match s.entry c with
  | some e =>
    if matchesPurge cl is e then
      if e.refs = 0 then setWalk (some (.purge cl is .first rest (n + 1))) (removeEntry e s)
      else setWalk (some (.purge cl is .first rest n)) (onEntry c (fun x => { x with inRemoval := true }) s)
    else setWalk (some (.purge cl is .first rest n)) s
  | none => setWalk (some (.purge cl is .first rest n)) s

/-- PURGE_FIRST_PASS_STEP (R18). -/
def execPurgeFirstPassStep (c : Cred) (s : State) : Host.Outcome State Fault Refusal :=
  running s (match s.table.walk with
    | some (.purge cl is .first todo n) =>
      if todo = [] then walkerStep settlePurge s
      else if c ∈ todo then walkerStep (fun t => settlePurge (purgeFirstVisit cl is todo n c t)) s
      else s
    | _ => s)

/-- The second pass reaches an entry: one whose sponsor is in removal is handled as a referring entry (R18). -/
def purgeSecondVisit (cl : ClassSet) (is : IssuerSet) (todo : List Cred) (n : Nat) (c : Cred) (s : State) : State :=
  let s := setWalk (some (.purge cl is .second (todo.filter (· != c)) n)) s
  match s.entry c with
  | some e =>
    match e.sponsor with
    | some p => (match s.entry p with
        | some x => if x.inRemoval then handleReferring e p s else s
        | none => s)
    | none => s
  | none => s

/-- PURGE_SECOND_PASS_STEP (R18). -/
def execPurgeSecondPassStep (c : Cred) (s : State) : Host.Outcome State Fault Refusal :=
  running s (match s.table.walk with
    | some (.purge cl is .second todo n) =>
      if todo = [] then walkerStep settlePurge s
      else if c ∈ todo then walkerStep (fun t => settlePurge (purgeSecondVisit cl is todo n c t)) s
      else s
    | _ => s)

/-- Each entry in turn is removed (R9). -/
def removeAll : List Entry → State → State
  | [], s => s
  | e :: r, s => removeAll r (removeEntry e s)

/-- The final step of a purge: the entries in removal go, the journal and the SECURITY port are told, the walk ends (R18). -/
def purgeEnd (n : Nat) (s : State) : State :=
  let marked := s.table.entries.filter (·.inRemoval)
  let count := n + marked.length
  endWalk (answer .security .ok (b2 count) (tableRecord .purged none (countDetail count) (removeAll marked s)))

/-- PURGE_FINAL_STEP (R18). -/
def execPurgeFinalStep (s : State) : Host.Outcome State Fault Refusal :=
  running s (match s.table.walk with
    | some (.purge _ _ .final _ n) => walkerStep (purgeEnd n) s
    | _ => s)

/-- The start step of a forced revoke (R15). -/
def forcedStart (c : Cred) (w : Bool) (s : State) : State :=
  match standingEntry s c with
  | none => endWalk (answer .security .noEntry [] s)
  | some e =>
    if e.refs = 0 then
      let r := revokeNow e w s
      endWalk (answer .security .ok (sentBody w r.2) r.1)
    else
      let s := tellEscort (.credit c) (onEntry c (fun x => { x with inRemoval := true }) s)
      let r := if w then withdrawClaim e.claim s else (s, false)
      setWalk (some (.forcedRevoke c w true (presentCreds s) 0 r.2)) r.1

/-- FORCED_REVOKE_START (R15). -/
def execForcedRevokeStart (s : State) : Host.Outcome State Fault Refusal :=
  running s (match s.table.walk with
    | some (.forcedRevoke c w false _ _ _) => walkerStep (forcedStart c w) s
    | _ => s)

/-- The walk of a forced revoke reaches an entry (R15). -/
def forcedVisit (r : Cred) (w : Bool) (todo : List Cred) (n : Nat) (sent : Bool) (c : Cred) (s : State) : State :=
  let rest := todo.filter (· != c)
  match s.entry c with
  | some e =>
    if e.sponsor = some r then
      setWalk (some (.forcedRevoke r w true rest (n + 1) sent)) (handleReferring e r s)
    else setWalk (some (.forcedRevoke r w true rest n sent)) s
  | none => setWalk (some (.forcedRevoke r w true rest n sent)) s

/-- FORCED_REVOKE_STEP (R15). -/
def execForcedRevokeStep (c : Cred) (s : State) : Host.Outcome State Fault Refusal :=
  running s (match s.table.walk with
    | some (.forcedRevoke r w true todo n sent) =>
      if c ∈ todo then walkerStep (forcedVisit r w todo n sent c) s else s
    | _ => s)

/-- The end step of a forced revoke (R15). Its OK body gives the number handled, then the withdrawal-sent byte: R13 and R15
give the two items no order, and this one is the model's choice (log entry 7). -/
def forcedEnd (r : Cred) (w : Bool) (n : Nat) (sent : Bool) (s : State) : State :=
  let s := match s.entry r with
    | some e => tableRecord .revoked (some r) .none (removeEntry e s)
    | none => s
  endWalk (answer .security .ok (b1 n ++ sentBody w sent) s)

/-- FORCED_REVOKE_END (R15): taken after every entry has been visited. -/
def execForcedRevokeEnd (s : State) : Host.Outcome State Fault Refusal :=
  running s (match s.table.walk with
    | some (.forcedRevoke r w true [] n sent) => walkerStep (forcedEnd r w n sent) s
    | _ => s)

/-- The sweep removes this entry (R21). -/
def sweepable (now : Secs) (e : Entry) : Bool :=
  e.issuer == .reception && (match e.validUntil with | some u => decide (u.toNat < now.toNat) | none => false)
    && e.claim.isNone && e.refs == 0

/-- A sweep that has visited every entry ends, with its record when it removed any (R21). -/
def settleSweep (s : State) : State :=
  match s.table.walk with
  | some (.sweep [] n) => endWalk (if n = 0 then s else tableRecord .swept none (countDetail n) s)
  | _ => s

/-- The sweep reaches an entry (R21). -/
def sweepVisit (todo : List Cred) (n : Nat) (c : Cred) (s : State) : State :=
  let rest := todo.filter (· != c)
  match s.entry c with
  | some e =>
    if sweepable s.clock.secs e then setWalk (some (.sweep rest (n + 1))) (removeEntry e s)
    else setWalk (some (.sweep rest n)) s
  | none => setWalk (some (.sweep rest n)) s

/-- SWEEP_STEP (R21). -/
def execSweepStep (c : Cred) (s : State) : Host.Outcome State Fault Refusal :=
  running s (match s.table.walk with
    | some (.sweep todo n) =>
      if todo = [] then walkerStep settleSweep s
      else if c ∈ todo then walkerStep (fun t => settleSweep (sweepVisit todo n c t)) s
      else s
    | _ => s)

/-- The minute sweep falls due: it starts if the walker is IDLE, otherwise it is skipped (R20, R21). A sweep of an empty
table has nothing to visit. -/
def minuteSweep (s : State) : State :=
  match s.table.walk, s.table.waiting with
  | none, none => settleSweep (setWalk (some (.sweep (presentCreds s) 0)) s)
  | _, _ => tableRecord .sweepSkipped none .none s

/-! ## Amnesty (R22) -/

/-- AMNESTY (R22). -/
def execAmnesty (s : State) : Host.Outcome State Fault Refusal :=
  running s (if s.arbiter.amnesty && hasTurn s .safety then
      ((served .safety s).onArbiter (fun a => { a with amnesty := false })).onTable
        (fun t => { t with entries := t.entries.map (fun e => { e with side := .unknown }) })
      |>.onMail (fun m => { m with amnestyDone := m.amnestyDone + 1 })
    else s)

/-! ## Postings (R23, R24) and escort claim releases (R7) -/

/-- The side a passage leads to (R23). -/
def Direction.farSide : Direction → Side
  | .entry => .inside
  | .exit => .outside

/-- What a posting makes of the entry whose claim it finds (R23, R24). -/
def postEntry (x : Posting) (now : Stamp) (e : Entry) : Entry :=
  if e.claim ≠ some (.window x.tag) then e
  else if x.outcome = .passed then
    { e with
      claim := none
      side := x.dir.farSide
      uses := if x.dir = .entry then e.uses.map (fun n => n - 1) else e.uses
      last := some ⟨now, x.tag.lane, x.dir⟩ }
  else { e with claim := none }

/-- The result goes back to the lane (R23). -/
def sendResult (r : PostingResult) (s : State) : State := s.onMail (fun m => { m with results := m.results ++ [r] })

/-- A posting at the table (R23, R24). -/
def post (x : Posting) (s : State) : State :=
  match s.entry x.cred with
  | some e => sendResult ⟨x.tag, false, some e.cls, e.refs⟩ (onEntry x.cred (postEntry x s.stamp) s)
  | none =>
    sendResult ⟨x.tag, true, none, 0⟩
      (s.onTable (fun t => { t with departed := t.departed.filter (fun d => d.tag != x.tag) }))

/-- PASSAGE_POSTING (R23, R24). -/
def execPassagePosting (s : State) : Host.Outcome State Fault Refusal :=
  running s (match firstTurn s with
    | some (.posting x) => post x (popFirst s)
    | _ => s)

/-- ESCORT_CLAIM_RELEASE (R7). -/
def execEscortClaimRelease (s : State) : Host.Outcome State Fault Refusal :=
  running s (match firstTurn s with
    | some (.claimRelease v) =>
      onEntry v (fun e => { e with claim := if e.claim = some .wait then none else e.claim }) (popFirst s)
    | _ => s)

end Sys2Proof.Machine
end

