-- ==== Sys2Proof/Machine/Escort.lean ====
section
/-!
DEFINITION. The escort unit (04_escorted_visitors.md): the escort list's operations, the escort release at the table, and
the commands that the escort unit takes.
-/
namespace Sys2Proof.Machine

/-! ## The list (R82, R83) -/

/-- The WAIT of a visitor. -/
def isWaitOf (v : Cred) : EscortRec → Bool
  | .wait x _ _ _ _ => x == v
  | .credit _ _ _ => false

/-- The credit of a sponsor. -/
def isCreditOf (c : Cred) : EscortRec → Bool
  | .credit x _ _ => x == c
  | .wait _ _ _ _ _ => false

/-- A SPONSOR_CREDIT. -/
def EscortRec.isCredit : EscortRec → Bool
  | .credit _ _ _ => true
  | .wait _ _ _ _ _ => false

/-- The WAIT of a visitor, if one is on the list. -/
def State.waitOf (s : State) (v : Cred) : Option EscortRec := s.escort.list.find? (isWaitOf v)

/-- A SPONSOR_CREDIT of the sponsor is on the list (R39). -/
def State.hasCredit (s : State) (c : Cred) : Bool := s.escort.list.any (isCreditOf c)

/-- The escort interval, at its current value, has passed since a started value (R83, R95), where R167 fixes a timer's length
at its start (log entry 46). -/
def intervalPassed (s : State) (started : Nat) : Bool := decide (started + s.escort.interval * 1000 ≤ s.time)

/-- A record that expires: a WAIT in WAITING or RELEASE_PENDING, or a credit, whose interval has passed (R83). -/
def EscortRec.expired (s : State) : EscortRec → Bool
  | .wait _ _ _ st ph => ph != .releasing && intervalPassed s st
  | .credit _ _ st => intervalPassed s st

/-- An ESCORT record (R93). -/
def escortRecord (c : EscortCode) (l : Option Lane) (cred : Option Cred) (d : Detail) (s : State) : State :=
  handOver .escort { time := s.stamp, code := .escort c, lane := l, cred := cred, detail := d } s

/-- The cause of a WITHDRAWN record: table, lockdown, release refused, in the order R93 lists them. -/
def causeDetail (n : Nat) : Detail := .items {} (b1 n)

/-- A WAIT leaves the list (R82). -/
def dropWait (v : Cred) (s : State) : State := onEscort (fun xs => xs.filter (fun r => !isWaitOf v r)) s

/-- A credit leaves the list (R82). -/
def dropCredit (c : Cred) (s : State) : State := onEscort (fun xs => xs.filter (fun r => !isCreditOf c r)) s

/-- The lane offers its free places, and its event ends (R72). -/
def settleLane (l : Lane) (s : State) : State := endEvent l (offerPlaces l s)

/-- The lane's event after a WAIT ended there: a RELEASE_PENDING WAIT's promise is withdrawn, and the lane offers its
free places again (R83, R90). -/
def afterWait (l : Lane) (ph : WaitPhase) (s : State) : State :=
  if ph = .releasePending then settleLane l s else endEvent l s

/-- A WAIT that expires leaves the list, asks for its claim release, and is journaled and shown (R83). -/
def expireWait (v sponsor : Cred) (l : Lane) (s : State) : State :=
  askEscort l .seeDesk (escortRecord .escortTimeout (some l) (some v) (.cred sponsor)
    (claimFirst (.claimRelease v) (dropWait v s)))

/-- A WAIT ends ESCORT_TIMEOUT (R83). -/
def timeoutWait (v : Cred) (s : State) : State :=
  match s.waitOf v with
  | some (.wait _ sponsor l _ ph) => afterWait l ph (expireWait v sponsor l s)
  | _ => s

/-- A credit expires (R83). -/
def expireCredit (c : Cred) (l : Lane) (s : State) : State :=
  escortRecord .creditExpired (some l) (some c) .none (dropCredit c s)

/-- A WAIT goes back to RELEASE_PENDING with its interval running, and asks its lane for WAIT, or ends ESCORT_TIMEOUT when
that has passed (R87, R89, R94), whatever phase it is in (log entry 28). -/
def backToPending (v : Cred) (s : State) : State :=
  match s.waitOf v with
  | some (.wait _ sponsor l st ph) =>
    if intervalPassed s st then
      let s := expireWait v sponsor l s
      if ph = .releasePending then settleLane l s else s
    else askEscort l .wait (onEscort (setPhase v .releasePending) s)
  | _ => s

/-- A WAIT takes another lane (R89). -/
def setWaitLane (v : Cred) (l : Lane) (list : List EscortRec) : List EscortRec :=
  list.map (fun r => match r with
    | .wait x sp m st ph => if x == v then .wait x sp l st ph else .wait x sp m st ph
    | c => c)

/-- A WAIT moves to another lane within a presentation lookup; the old lane shows BLANK, and offers its places again
when a promise was withdrawn there (R42, R89, log entry 11). -/
def moveWait (v : Cred) (l : Lane) (s : State) : State :=
  match s.waitOf v with
  | some (.wait _ _ old _ ph) =>
    let s := onEscort (setWaitLane v l) s
    let s := if ph = .releasing then backToPending v s else s
    afterWait old ph (askEscort old .blank s)
  | _ => s

/-! ## A WAIT that the table ended (R90) -/

/-- A WAIT leaves the list WITHDRAWN by the table, journaled and shown (R90, R93, R94). -/
def withdrawnByTable (v : Cred) (l : Lane) (s : State) : State :=
  askEscort l .seeDesk (escortRecord .withdrawn (some l) (some v) (causeDetail 0) (dropWait v s))

/-- The messages that end the visitor's WAIT are taken. -/
def takeWaitEnds (v : Cred) (s : State) : State :=
  s.onMail (fun m => { m with escortEnds := m.escortEnds.filter (fun x => x != .wait v) })

/-- Before a presentation lookup makes a claim for a visitor, the escort unit takes what the table told it of that visitor: a
WAIT whose claim the table has cleared ends, so that no second one can stand beside it (R39, R82, R90, log entry 31). -/
def endStale (v : Cred) (l : Lane) (s : State) : State :=
  let s := takeWaitEnds v s
  match s.waitOf v with
  | some (.wait _ _ old _ ph) =>
    if old = l then withdrawnByTable v old s else afterWait old ph (withdrawnByTable v old s)
  | _ => s

/-! ## Requests (R95, R96) -/

/-- A request that is not taken at the table is taken by its block: it leaves the port (R187). -/
def takenByBlock (p : Port) (f : State → State) (s : State) : State := f (takeRequest p s)

/-- Each record whose age has reached the interval ends, in list order (R95). -/
def expireAll : List EscortRec → State → State
  | [], s => s
  | r :: rest, s =>
    expireAll rest (if r.expired s then
      (match r with
       | .wait v sp l _ _ => expireWait v sp l s
       | .credit c l _ => expireCredit c l s)
      else s)

/-- The lanes of the WAITs in a list offer their places again and end their events. -/
def settleWaitLanes : List EscortRec → State → State
  | [], s => s
  | .wait _ _ l _ ph :: rest, s => settleWaitLanes rest (afterWait l ph s)
  | .credit _ _ _ :: rest, s => settleWaitLanes rest s

/-- SET_ESCORT at the escort unit (R95). -/
def setEscort (p : Port) (v : Nat) (s : State) : State :=
  if v < 10 ∨ v > 600 then answer p .badField [] s
  else
    let s := { s with escort := { s.escort with interval := v } }
    let old := s.escort.list
    answer p .ok [] (settleWaitLanes (old.filter (EscortRec.expired s)) (expireAll old s))

/-- SET_ESCORT (R95). -/
def execSetEscort (p : Port) (s : State) : Host.Outcome State Fault Refusal :=
  running s (match s.request p with
    | some (.setEscort v) => takenByBlock p (setEscort p v) s
    | _ => s)

/-- ESCORT_STATUS (R96). -/
def execEscortStatus (p : Port) (s : State) : Host.Outcome State Fault Refusal :=
  running s (match s.request p with
    | some (.escortStatus b) =>
      takenByBlock p (fun t => if b.toNat > 15 then answer p .badField [] t
        else answer p .ok (escortBody t b.toNat) t) s
    | _ => s)

/-! ## Expiries (R83) -/

/-- ESCORT_WAIT_EXPIRY (R83). -/
def execEscortWaitExpiry (c : Cred) (s : State) : Host.Outcome State Fault Refusal :=
  running s (match s.waitOf c with
    | some r => if r.expired s then timeoutWait c s else s
    | none => s)

/-- CREDIT_EXPIRY (R83). -/
def execCreditExpiry (c : Cred) (s : State) : Host.Outcome State Fault Refusal :=
  running s (match s.escort.list.find? (isCreditOf c) with
    | some (.credit x l st) => if intervalPassed s st then expireCredit x l s else s
    | _ => s)

/-! ## Sponsor passages (R84, R85) -/

/-- The credit of a sponsor passage is renewed, made, or not made for want of room (R84). R92 bars the making alone: while
the egress state is EGRESS a standing credit is renewed and a full list is recorded as ever, and a passage that would make a
credit makes none and has no record of one (log entry 38). -/
def sponsorCredit (c : Cred) (l : Lane) (s : State) : State :=
  if s.hasCredit c then
    escortRecord .creditRenewed (some l) (some c) .none
      (onEscort (fun xs => xs ++ [.credit c l s.time]) (dropCredit c s))
  else if s.escort.list.length < Config.escortCapacity then
    if s.safety.egress = .egress then s
    else escortRecord .creditMade (some l) (some c) .none (onEscort (fun xs => xs ++ [.credit c l s.time]) s)
  else escortRecord .creditMade (some l) (some c) (.items { listFull := true } []) s

/-- Each WAITING WAIT of the sponsor goes to RELEASE_PENDING, in list order: it is journaled, WAIT is requested at its lane,
and the lane is told (R85, R94, log entry 22). -/
def releaseWaits (sponsor : Cred) : List EscortRec → State → State
  | [], s => s
  | .wait v sp l _ .waiting :: rest, s =>
    releaseWaits sponsor rest (if sp = sponsor then
      (askEscort l .wait (escortRecord .releasePending (some l) (some v) (.cred sp)
        (onEscort (setPhase v .releasePending) s))).onMail (fun m => { m with releases := m.releases ++ [(l, v)] })
      else s)
  | _ :: rest, s => releaseWaits sponsor rest s

/-- The requests left at the lanes' outer displays are taken (R73). -/
def settleOuter : List Lane → State → State
  | [], s => s
  | l :: r, s => settleOuter r (settleDisplay l .outer s)

/-- A passage handed to the escort unit: a sponsor passage deals with the credit and then with the waits (R84, R85). -/
def sponsorPassage (x : HandedPassage) (s : State) : State :=
  if x.dir = .entry ∧ x.gone = false ∧ x.refs > 0 then
    let s := sponsorCredit x.cred x.lane s
    settleOuter Lane.all (releaseWaits x.cred s.escort.list s)
  else s

/-- SPONSOR_PASSAGE (R84). -/
def execSponsorPassage (l : Lane) (s : State) : Host.Outcome State Fault Refusal :=
  running s (match takeFirst (fun x => x.lane == l) s.mail.sponsors with
    | some (x, rest) => sponsorPassage x (s.onMail (fun m => { m with sponsors := rest }))
    | none => s)

/-- LANE_RELEASE_NOTICE (R85): the lane offers its free places. -/
def execLaneReleaseNotice (l : Lane) (s : State) : Host.Outcome State Fault Refusal :=
  running s (match takeFirst (fun x => x.1 == l) s.mail.releases with
    | some (_, rest) => settleLane l (s.onMail (fun m => { m with releases := rest }))
    | none => s)

/-! ## The escort release (R86, R87) -/

/-- Test 1 of R87: the lane is in service, its mode enables ENTRY, and lockdown is off. -/
def laneTakesRelease (s : State) (l : Lane) : Bool :=
  (s.lane l).state.inService && modeEnables s l .entry && !s.safety.lockdown

/-- Test 2 of R87: the WAIT is on the list, in RELEASING, and names this lane. -/
def releasingAt (s : State) (l : Lane) (v : Cred) : Bool :=
  match s.waitOf v with
  | some (.wait _ _ m _ .releasing) => m == l
  | _ => false

/-- The lane a visitor's WAIT names, or another when there is none. -/
def waitLane (s : State) (v : Cred) (other : Lane) : Lane :=
  match s.waitOf v with
  | some (.wait _ _ m _ _) => m
  | _ => other

/-- The sponsor a visitor's WAIT names. -/
def waitSponsor (s : State) (v : Cred) : Cred :=
  match s.waitOf v with
  | some (.wait _ sp _ _ _) => sp
  | _ => 0

/-- The visitor is released into a window (R87). -/
def releaseInto (e : Entry) (l : Lane) (s : State) : State :=
  let t : Tag := ⟨l, (s.lane l).nextSerial⟩
  let sp := waitSponsor s e.cred
  createWindow l e .entry .escortRelease false
    (handOver .escort { time := s.stamp, code := .escort .released, lane := some l, tag := some t, cred := some e.cred,
                        cls := some e.cls, dir := some .entry, detail := .cred sp } (dropWait e.cred s))

/-- A WAIT ends WITHDRAWN because its release was refused (R87, R93). -/
def refuseWait (v : Cred) (l : Lane) (s : State) : State :=
  askEscort l .seeDesk (escortRecord .withdrawn (some l) (some v) (causeDetail 2) (dropWait v s))

/-- The three tests of an escort release, and its effect (R87). A WAIT that test 1 sends back is the first of the place's
next claimants when it is the oldest one there: the place is offered in the same event (log entry 36). -/
def releaseAtTable (v : Cred) (l : Lane) (s : State) : State :=
  if !laneTakesRelease s l then settleLane l (if releasingAt s l v then backToPending v s else s)
  else if !releasingAt s l v then settleLane l (endEvent (waitLane s v l) (backToPending v s))
  else match s.entry v with
    | some e =>
      if e.claim = some .wait then endEvent l (releaseInto e l s) else settleLane l (refuseWait v l s)
    | none => settleLane l (refuseWait v l s)

/-- ESCORT_RELEASE (R87). -/
def execEscortRelease (s : State) : Host.Outcome State Fault Refusal :=
  running s (match secondTurn s with
    | some (.release v l) => releaseAtTable v l (popSecond s)
    | _ => s)

/-! ## Endings from the table, lockdown and egress (R90 to R92) -/

/-- A WAIT ends WITHDRAWN by the table: a message ends whichever WAIT of the visitor stands (R90, log entry 31). -/
def withdrawWait (v : Cred) (s : State) : State :=
  match s.waitOf v with
  | some (.wait _ _ l _ ph) => afterWait l ph (withdrawnByTable v l s)
  | _ => s

/-- A credit is removed by the table (R90). -/
def removeCredit (c : Cred) (s : State) : State :=
  if s.hasCredit c then escortRecord .creditRemoved none (some c) .none (dropCredit c s) else s

/-- ESCORT_END_MESSAGE (R90): a message that finds no record does nothing. -/
def execEscortEndMessage (s : State) : Host.Outcome State Fault Refusal :=
  running s (match s.mail.escortEnds with
    | .wait v :: rest => withdrawWait v (s.onMail (fun m => { m with escortEnds := rest }))
    | .credit c :: rest => removeCredit c (s.onMail (fun m => { m with escortEnds := rest }))
    | [] => s)

/-- Every WAIT's claim release is asked for and its end journaled, in list order (R91, R92). -/
def recordEnds (lockdown : Bool) : List EscortRec → State → State
  | [], s => s
  | .wait v _ l _ _ :: rest, s =>
    let s := claimFirst (.claimRelease v) s
    recordEnds lockdown rest (if lockdown then
        askEscort l .seeDesk (escortRecord .withdrawn (some l) (some v) (causeDetail 1) s)
      else escortRecord .overtaken (some l) (some v) .none s)
  | .credit _ _ _ :: rest, s => recordEnds lockdown rest s

/-- The whole list is cleared (R91, R92). -/
def clearList (lockdown : Bool) (s : State) : State :=
  let old := s.escort.list
  let s := recordEnds lockdown old (onEscort (fun _ => []) s)
  escortRecord .creditsCleared none none (.items {} (b1 (old.filter EscortRec.isCredit).length)) s

/-- Every lane's event ends. -/
def endEvents : List Lane → State → State
  | [], s => s
  | l :: r, s => endEvents r (endEvent l s)

/-- ESCORT_LOCKDOWN (R91). -/
def execEscortLockdown (s : State) : Host.Outcome State Fault Refusal :=
  running s (if s.mail.escortLockdowns = 0 then s
    else endEvents Lane.all (clearList true (s.onMail (fun m => { m with escortLockdowns := m.escortLockdowns - 1 }))))

/-- ESCORT_EGRESS_CLEAR (R92). -/
def execEscortEgressClear (s : State) : Host.Outcome State Fault Refusal :=
  running s (if s.mail.escortClears = 0 then s
    else clearList false (s.onMail (fun m => { m with escortClears := m.escortClears - 1 })))

end Sys2Proof.Machine
end

