-- ==== Sys2Proof/Machine/Occupancy.lean ====
section
/-!
DEFINITION. The occupancy and governor unit (06_occupancy_and_the_entry_governor.md): head counts, the four groups, the
active action, and the commands the unit and the lanes take for them.
-/
namespace Sys2Proof.Machine

/-! ## Records (R113, R114, R120) -/

/-- A BANK record and the BANK notice of each port. -/
def bankEvent (c : BankCode) (items : List Byte) (s : State) : State :=
  notifyAll .bank (handOver .occupancy
    { time := s.stamp, code := .bank c, detail := if items = [] then .none else .bank items } s)

/-- Why the counts became uncertain (R113). -/
inductive UncertainCause where
  | full (c : Class)
  | empty (c : Class)
  | egress
deriving DecidableEq, Repr

/-- The cause, and the class of the first two (R113). -/
def UncertainCause.bytes : UncertainCause → List Byte
  | .full c => 0 :: b1 c.num
  | .empty c => 1 :: b1 c.num
  | .egress => [2]

/-- The counts-uncertain flag is set, with its record and notice when it was clear (R113). -/
def setUncertain (c : UncertainCause) (s : State) : State :=
  if s.occupancy.uncertain then s
  else bankEvent .countsUncertain c.bytes { s with occupancy := { s.occupancy with uncertain := true } }

/-! ## Groups (R116 to R119) -/

/-- A group by its number. -/
def Groups.get (g : Groups) : Nat → Group
  | 0 => g.g0 | 1 => g.g1 | 2 => g.g2 | _ => g.g3

/-- The groups with one of them changed. -/
def Groups.set (g : Groups) (n : Nat) (x : Group) : Groups :=
  match n with
  | 0 => { g with g0 := x } | 1 => { g with g1 := x } | 2 => { g with g2 := x } | _ => { g with g3 := x }

/-- A function applied to every group. -/
def Groups.map (f : Group → Group) (g : Groups) : Groups := ⟨f g.g0, f g.g1, f g.g2, f g.g3⟩

/-- The count a group watches (R116). -/
def HeadCounts.source (c : HeadCounts) : GovSource → Nat
  | .total => c.total | .staff => c.staff | .contractor => c.contractor | .visitor => c.visitor

/-- The source that watches a class alone (R118). -/
def Class.source : Class → GovSource
  | .staff => .staff | .contractor => .contractor | .visitor => .visitor

/-- A group is evaluated (R118). -/
def Group.evaluate (c : HeadCounts) (g : Group) : Group :=
  let v := c.source g.source
  { g with active := g.enabled && (if v ≥ g.high then true else if v ≤ g.low then false else g.active) }

/-- A group's pace interval, in whole milliseconds (R117). -/
def paceInterval (nominal : Nat) (g : Group) : Nat :=
  match g.mode with
  | .eighths => nominal * 8 / (g.n + 1)
  | .divide => nominal * (g.n + 1)

/-- The action a group gives as group number `n` (R119). -/
def Group.gives (nominal : Nat) (n : Nat) (g : Group) : ActiveAction :=
  match g.action with
  | .pace => .pace n (paceInterval nominal g)
  | .bar => .bar n g.barred
  | .closeEntry => .closeEntry n

/-- The active action: that of the lowest-numbered ACTIVE group (R119). -/
def OccupancyUnit.activeAction (o : OccupancyUnit) : ActiveAction :=
  if o.groups.g0.active then o.groups.g0.gives o.nominal 0
  else if o.groups.g1.active then o.groups.g1.gives o.nominal 1
  else if o.groups.g2.active then o.groups.g2.gives o.nominal 2
  else if o.groups.g3.active then o.groups.g3.gives o.nominal 3
  else .none

/-- The group that gives an action. -/
def ActiveAction.group : ActiveAction → Option Nat
  | .none => Option.none
  | .pace n _ => some n
  | .bar n _ => some n
  | .closeEntry n => some n

/-- A group number, 0xFF for none (R195). -/
def groupByte : Option Nat → Byte
  | some n => BitVec.ofNat 8 n
  | none => 0xFF

/-- The action's number (R116, R195); 0xFF for none is the model's choice (log entry 7). -/
def ActiveAction.byte : ActiveAction → Byte
  | .none => 0xFF
  | .pace _ _ => BitVec.ofNat 8 GovAction.pace.num
  | .bar _ _ => BitVec.ofNat 8 GovAction.bar.num
  | .closeEntry _ => BitVec.ofNat 8 GovAction.closeEntry.num

/-- The barred set or the pace interval, as the action uses them (R120, R195); 0 for CLOSE_ENTRY and for none is the model's
choice (log entry 7). -/
def ActiveAction.value : ActiveAction → Nat
  | .pace _ i => i
  | .bar _ c => c.toNat
  | _ => 0

/-- The group that caused a change of the active action: the one that took it, or the one that gave it up (R120, log
entry 12). -/
def causeGroup (old new : ActiveAction) : Nat :=
  match old.group, new.group with
  | none, some n => n
  | some m, none => m
  | some m, some n => if n ≤ m then n else m
  | none, none => 0

/-- The items of a GOVERNOR record (R120, R195); with no active action, or with CLOSE_ENTRY, the action and value bytes that
no rule gives are the model's choice (log entry 7). -/
def governorItems (o : OccupancyUnit) (old new : ActiveAction) : List Byte :=
  groupByte new.group :: new.byte :: b2 new.value
    ++ b3 (o.counts.source (o.groups.get (causeGroup old new)).source)

/-- A changed active action is handed on: to the eight lanes, the journal and the ports (R120). -/
def handAction (old : ActiveAction) (s : State) : State :=
  let new := s.occupancy.activeAction
  if new = old then s
  else bankEvent .governor (governorItems s.occupancy old new)
    (s.onMail (fun m => { m with actions := m.actions ++ Lane.all.map (fun l => (l, new)) }))

/-- The occupancy unit takes another value, and a changed active action is handed on (R119, R120). -/
def setOccupancy (o : OccupancyUnit) (s : State) : State :=
  handAction s.occupancy.activeAction { s with occupancy := o }

/-! ## Counting (R112) -/

/-- The count of one class. -/
def HeadCounts.of (c : HeadCounts) : Class → Nat
  | .staff => c.staff | .contractor => c.contractor | .visitor => c.visitor

/-- The counts with that of one class replaced. -/
def HeadCounts.put (c : HeadCounts) (k : Class) (n : Nat) : HeadCounts :=
  match k with
  | .staff => { c with staff := n } | .contractor => { c with contractor := n } | .visitor => { c with visitor := n }

/-- The groups whose source is the class or TOTAL are evaluated (R118). -/
def evaluateFor (k : Class) (c : HeadCounts) (g : Groups) : Groups :=
  g.map (fun x => if x.source = .total ∨ x.source = Class.source k then x.evaluate c else x)

/-- A class's count changes, and its groups are evaluated (R112, R118). -/
def changeCount (k : Class) (n : Nat) (s : State) : State :=
  let c := s.occupancy.counts.put k n
  setOccupancy { s.occupancy with counts := c, groups := evaluateFor k c s.occupancy.groups } s

/-- A PASSED window is counted (R112). -/
def countPassage (k : Class) (d : Direction) (s : State) : State :=
  let n := s.occupancy.counts.of k
  match d with
  | .entry => if n < Config.countMax then changeCount k (n + 1) s else setUncertain (.full k) s
  | .exit => if n > 0 then changeCount k (n - 1) s else setUncertain (.empty k) s

/-- OCCUPANCY_PASSAGE (R112). -/
def execOccupancyPassage (l : Lane) (s : State) : Host.Outcome State Fault Refusal :=
  running s (match takeFirst (fun x => x.lane == l) s.mail.passages with
    | some (x, rest) => countPassage x.cls x.dir (s.onMail (fun m => { m with passages := rest }))
    | none => s)

/-! ## Requests -/

/-- SET_COUNTS at the occupancy unit (R114). -/
def applyCounts (c : HeadCounts) (s : State) : State :=
  setOccupancy { s.occupancy with
      counts := c, uncertain := false, groups := s.occupancy.groups.map (Group.evaluate c) }
    (handOver .occupancy
      { time := s.stamp, code := .bank .countsSet,
        detail := .bank (b2 c.staff ++ b2 c.contractor ++ b2 c.visitor ++ [yes s.occupancy.uncertain]) } s)

/-- SET_COUNTS (R114). -/
def execSetCounts (p : Port) (s : State) : Host.Outcome State Fault Refusal :=
  running s (match s.request p with
    | some (.setCounts a b c) =>
      takenByBlock p (fun t =>
        if a > Config.countMax ∨ b > Config.countMax ∨ c > Config.countMax then answer p .badField [] t
        else answer p .ok [] (applyCounts ⟨a, b, c⟩ t)) s
    | _ => s)

/-- COUNTS (R115). -/
def execCounts (p : Port) (s : State) : Host.Outcome State Fault Refusal :=
  running s (match s.request p with
    | some .counts => takenByBlock p (fun t => answer p .ok (countsBody t.occupancy) t) s
    | _ => s)

/-- A class set given by a byte, empty allowed (R116). -/
def classSetOf (b : Byte) : Option ClassSet := if b.toNat > 7 then none else some (b.extractLsb' 0 3)

/-- A group as it would stand after a write, if every given value names something (R121). -/
def writtenGroup (g : Group) (c : GroupChange) : Option Group :=
  (newField yesNo g.enabled c.enabled).bind fun en =>
  (newField (fun b => GovSource.ofNum b.toNat) g.source c.source).bind fun src =>
  (newField (fun b => GovAction.ofNum b.toNat) g.action c.action).bind fun act =>
  (newField (fun b => PaceMode.ofNum b.toNat) g.mode c.mode).bind fun mode =>
  (newField (fun b => if b.toNat > 7 then none else some b.toNat) g.n c.n).bind fun n =>
  (newField classSetOf g.barred c.barred).bind fun bar =>
  let g' : Group :=
    { g with enabled := en, source := src, high := c.high.getD g.high, low := c.low.getD g.low, action := act,
             mode := mode, n := n, barred := bar }
  if g'.low < g'.high && !(g'.action == .bar && g'.barred == 0) then some g' else none

/-- Group fields are given (R121). -/
def GroupChange.any (c : GroupChange) : Bool :=
  c.enabled.isSome || c.source.isSome || c.high.isSome || c.low.isSome || c.action.isSome || c.mode.isSome
    || c.n.isSome || c.barred.isSome

/-- The nominal interval of a write is in range (R121). -/
def nominalFits : Option Nat → Bool
  | none => true
  | some n => decide (250 ≤ n) && decide (n ≤ 5000)

/-- A group's state: ACTIVE, INACTIVE (R116). -/
def activeByte (a : Bool) : Byte := if a then 0 else 1

/-- SET_GOVERNOR at the occupancy unit (R121): a write of the nominal interval alone evaluates no group. A request that
names no group is answered with the active-group byte alone: the model's choice (log entry 7). -/
def setGovernor (p : Port) (g : Byte) (c : GroupChange) (nominal : Option Nat) (s : State) : State :=
  let o := { s.occupancy with nominal := nominal.getD s.occupancy.nominal }
  if !nominalFits nominal then answer p .badField [] s
  else if g = 0xFF then
    if c.any then answer p .badField [] s
    else
      let s := setOccupancy o s
      answer p .ok [groupByte s.occupancy.activeAction.group] s
  else if g.toNat > 3 then answer p .badField [] s
  else match writtenGroup (o.groups.get g.toNat) c with
    | none => answer p .badField [] s
    | some x =>
      let x := if c.any then x.evaluate o.counts else x
      let s := setOccupancy { o with groups := o.groups.set g.toNat x } s
      answer p .ok [activeByte x.active, groupByte s.occupancy.activeAction.group] s

/-- SET_GOVERNOR (R121). -/
def execSetGovernor (p : Port) (s : State) : Host.Outcome State Fault Refusal :=
  running s (match s.request p with
    | some (.setGovernor g c n) => takenByBlock p (setGovernor p g c n) s
    | _ => s)

/-- A group in GOVERNOR_STATUS: its fields, its state and its pace interval (R122). -/
def groupBytes (nominal : Nat) (g : Group) : List Byte :=
  yes g.enabled :: b1 g.source.num ++ b2 g.high ++ b2 g.low ++ b1 g.action.num ++ b1 g.mode.num ++ b1 g.n
    ++ b1 g.barred.toNat ++ [activeByte g.active] ++ b2 (paceInterval nominal g)

/-- The GOVERNOR_STATUS body (R122). The item of the active action always has two bytes, 0 where neither a barred set nor a
pace interval applies: the model's choice (log entry 7). -/
def governorBody (o : OccupancyUnit) : List Byte :=
  let a := o.activeAction
  b2 o.nominal ++ groupBytes o.nominal o.groups.g0 ++ groupBytes o.nominal o.groups.g1
    ++ groupBytes o.nominal o.groups.g2 ++ groupBytes o.nominal o.groups.g3
    ++ [groupByte a.group, a.byte] ++ b2 a.value ++ countsBody o

/-- GOVERNOR_STATUS (R122). -/
def execGovernorStatus (p : Port) (s : State) : Host.Outcome State Fault Refusal :=
  running s (match s.request p with
    | some .governorStatus => takenByBlock p (fun t => answer p .ok (governorBody t.occupancy) t) s
    | _ => s)

end Sys2Proof.Machine
end

