-- ==== Sys2Proof/Machine/Decision.lean ====
section
/-!
DEFINITION. The decision unit (02_presentations_and_verdicts.md): the order of checks, verdicts and their effects, the
presentation lookup, the desk pass and its reservation.
-/
namespace Sys2Proof.Machine

/-! ## Verdicts -/

/-- A verdict with what it carries; an entry stands in it when one was found (R29, R41, R43). -/
inductive Verdict where
  | grant (e : Entry) (mark : Bool)
  | await (e : Entry) (mark : Bool)
  | moved (e : Entry) (old : Lane)
  | repeatWindow (e : Entry) (t : Tag)
  | repeatWait (e : Entry)
  | busy
  | free
  | deny (e : Option Entry) (r : DenyReason) (mark : Bool)
deriving DecidableEq, Repr

/-- The verdict's code (R193). -/
def Verdict.kind : Verdict → VerdictKind
  | .grant _ _ => .grant | .await _ _ | .moved _ _ => .awaitSponsor | .repeatWindow _ _ | .repeatWait _ => .repeated
  | .busy => .busy | .free => .free | .deny _ _ _ => .deny

/-- The entry that was found. -/
def Verdict.entry : Verdict → Option Entry
  | .grant e _ | .await e _ | .moved e _ | .repeatWindow e _ | .repeatWait e => some e
  | .deny e _ _ => e
  | .busy | .free => none

/-- The detail of a presentation's VERDICT record (R43, R195). -/
def Verdict.detail : Verdict → Detail
  | .grant _ m | .await _ m => if m then .items { passback := true } [] else .none
  | .moved _ old => .items {} (b1 old.num)
  | .deny _ r m => .items { passback := m } (b1 r.num)
  | _ => .none

/-- The tag of a VERDICT record: present for GRANT and for REPEAT on a window (R43). -/
def Verdict.tag (s : State) (l : Lane) : Verdict → Option Tag
  | .grant _ _ => some ⟨l, (s.lane l).nextSerial⟩
  | .repeatWindow _ t => some t
  | _ => none

/-- A BUSY or a DENY adds one to the lane's denial counter (R41). -/
def Verdict.denies : Verdict → Bool
  | .busy | .deny _ _ _ => true
  | _ => false

/-! ## The checks -/

/-- Check 1 for a presentation (R30). -/
def laneAccepts (s : State) (l : Lane) (d : Direction) : Bool :=
  (s.lane l).state.inService && modeEnables s l d && agreedAt s l d.reader.slot

/-- The verdict of a failed check 1 (R30). -/
def laneRefusal (s : State) (l : Lane) : Verdict :=
  if (s.lane l).state = .free then .free else .deny none .laneDirection false

/-- Check 2 for a presentation: the free places exceed the promised places (R31). -/
def hasRoom (s : State) (l : Lane) : Bool := decide (promisedPlaces s l < freePlaces s l)

/-- Check 9 (R35). -/
def validityCheck (s : State) (e : Entry) : Option DenyReason :=
  if e.validFrom.isNone && e.validUntil.isNone then none
  else if !s.clock.set then some .clockUnset
  else if (match e.validFrom with | some f => decide (s.clock.secs.toNat < f.toNat) | none => false) then some .notYet
  else if (match e.validUntil with | some u => decide (u.toNat < s.clock.secs.toNat) | none => false) then some .expired
  else none

/-- The entry permits a direction: check 8 (R34). -/
def Directions.permits : Directions → Direction → Bool
  | .both, _ => true
  | .entry, d => d == .entry
  | .exit, d => d == .exit

/-- Check 12: the governor refuses the class (R37). -/
def governorRefuses (a : ActiveAction) (c : Class) : Bool :=
  match a with
  | .closeEntry _ => true
  | .bar _ barred => hasClass barred c
  | _ => false

/-- Passback applies (R38). -/
def passbackApplies (e : Entry) (d : Direction) : Bool :=
  match d with
  | .entry => e.side == .inside
  | .exit => e.side == .outside

/-- Checks 5 to 12, in their order; a desk pass gives no medium and skips check 6 (R34 to R37, R45). -/
def permitCheck (s : State) (e : Entry) (l : Lane) (d : Direction) (m : Option Medium) : Option DenyReason :=
  if treatedSuspended s e then some .suspended
  else if (match m with | some k => !hasMedium e.media k | none => false) then some .media
  else if !hasLane e.lanes l then some .laneNotPermitted
  else if !e.directions.permits d then some .direction
  else match validityCheck s e with
    | some r => some r
    | none =>
      if d = .exit then none
      else if e.uses = some 0 then some .usedUp
      else if e.responder then none
      else if s.safety.lockdown then some .lockdown
      else if governorRefuses s.occupancy.activeAction e.cls then some .governor
      else none

/-- Check 13: the refusal, or the passback mark (R38). -/
def passbackCheck (e : Entry) (d : Direction) : Except DenyReason Bool :=
  if !passbackApplies e d then .ok false
  else match e.passback with
    | .strict => .error .passback
    | .soft => .ok true
    | .none => .ok false

/-- Check 14 asks the escort unit: an entering VISITOR with a sponsor (R39). -/
def needsEscort (e : Entry) (d : Direction) : Bool := d == .entry && e.cls == .visitor && e.sponsor.isSome

/-- The escort list has room for a WAIT of the visitor: an earlier one, which the table has ended, does not count (R39,
R82, log entry 31). -/
def escortRoom (s : State) (v : Cred) : Bool :=
  decide ((s.escort.list.filter (fun r => !isWaitOf v r)).length < Config.escortCapacity)

/-- Check 14 (R39). -/
def escortCheck (s : State) (e : Entry) (d : Direction) (mark : Bool) : Verdict :=
  if !needsEscort e d then .grant e mark
  else if (match e.sponsor with | some c => s.hasCredit c | none => false) then .grant e mark
  else if escortRoom s e.cred then .await e mark
  else .deny (some e) .escortBusy mark

/-- Checks 5 to 15 (R34 to R39). -/
def weigh (s : State) (e : Entry) (l : Lane) (d : Direction) (m : Medium) : Verdict :=
  match permitCheck s e l d (some m) with
  | some r => .deny (some e) r false
  | none =>
    match passbackCheck e d with
    | .error r => .deny (some e) r false
    | .ok mark => escortCheck s e d mark

/-- Check 4 (R33): the verdict for a claimed entry, or none when the claim is absent. -/
def claimCheck (s : State) (e : Entry) (l : Lane) (d : Direction) : Option Verdict :=
  match e.claim with
  | none => none
  | some (.window t) => some (if t.lane = l then .repeatWindow e t else .deny (some e) .inUse false)
  | some .wait =>
    match s.waitOf e.cred with
    | some (.wait _ _ m _ _) =>
      some (if m = l then .repeatWait e
        else if d = .entry then .moved e m
        else .deny (some e) .inUse false)
    | _ => some (.deny (some e) .inUse false)

/-- The verdict of a presentation lookup (R32 to R39). -/
def lookupVerdict (s : State) (l : Lane) (p : Presentation) : Verdict :=
  if !laneAccepts s l p.dir then laneRefusal s l
  else match s.entry p.cred with
    | none => .deny none .unknownCredential false
    | some e => (claimCheck s e l p.dir).getD (weigh s e l p.dir p.medium)

/-! ## Effects of a verdict (R41 to R43) -/

/-- A DENY reason shown as SEE_DESK (R42). -/
def DenyReason.atDesk : DenyReason → Bool
  | .unknownCredential | .notYet | .expired | .usedUp | .clockUnset | .escortBusy => true
  | _ => false

/-- The indication of a verdict; a GRANT's is its window's (R42). -/
def Verdict.indication (s : State) : Verdict → Option Indication
  | .grant _ _ => none
  | .await _ _ | .moved _ _ | .repeatWait _ => some .waitSponsor
  | .repeatWindow _ t =>
    some (match findWindow s t with
      | some w => if w.state = .opened ∨ w.state = .transit then .go else .wait
      | none => .wait)
  | .busy => some .wait
  | .free => some .free
  | .deny _ r _ => some (if r.atDesk then .seeDesk else .stop)

/-- The VERDICT record of a presentation (R43). -/
def verdictRecord (l : Lane) (d : Direction) (c : Cred) (v : Verdict) (s : State) : State :=
  handOver .decision
    { time := s.stamp, code := .verdict v.kind, lane := some l, tag := v.tag s l, cred := some c,
      cls := v.entry.map (·.cls), dir := some d, detail := v.detail } s

/-- The table's and the collections' part of a verdict (R40, R41). -/
def verdictEffect (l : Lane) (d : Direction) (v : Verdict) (s : State) : State :=
  match v with
  | .grant e mark => createWindow l e d .presentation mark (endStale e.cred l s)
  | .await e _ =>
    onEntry e.cred (fun x => { x with claim := some .wait })
      (onEscort (fun xs => xs ++ [.wait e.cred (e.sponsor.getD 0) l s.time .waiting]) (endStale e.cred l s))
  | .moved e _ => moveWait e.cred l s
  | _ => s

/-- A verdict is handed on: its effect, the counter, the record and the indication (R41 to R43). The denial counter of a
lane that left service before the lookup keeps its value: R76 holds it there, and R41 does not say which comes first (log
entry 34). -/
def giveVerdict (l : Lane) (d : Direction) (c : Cred) (v : Verdict) (s : State) : State :=
  let shown := v.indication s
  let s := verdictEffect l d v (verdictRecord l d c v s)
  let s := if v.denies then countDenial l s else s
  match shown with
  | some i => ask l d.reader i s
  | none => s

/-- A presentation reaches the decision unit: dropped while the slot is DECIDING, otherwise checks 1 and 2, and a lookup
claimed with a place held (R28, R30, R31). -/
def startDecision (l : Lane) (p : Presentation) (s : State) : State :=
  if (s.lane l).decision.isSome then countLineError l s
  else if !laneAccepts s l p.dir then endEvent l (giveVerdict l p.dir p.cred (laneRefusal s l) s)
  else if !hasRoom s l then endEvent l (giveVerdict l p.dir p.cred .busy s)
  else claimSecond (.lookup l) (s.onLane l (fun u => { u with decision := some p }))

/-- The decision slot returns to IDLE (R41). -/
def clearDecision (l : Lane) (s : State) : State := s.onLane l (fun u => { u with decision := none })

/-- A presentation lookup at the table: the verdict, its effect, and the held place turned into the window or given back
(R32, R41). -/
def lookupAtTable (l : Lane) (p : Presentation) (s : State) : State :=
  let v := lookupVerdict s l p
  let s := giveVerdict l p.dir p.cred v (clearDecision l s)
  if v.kind = .grant then endEvent l s else settleLane l s

/-- PRESENTATION_LOOKUP (R32). -/
def execPresentationLookup (s : State) : Host.Outcome State Fault Refusal :=
  running s (match secondTurn s with
    | some (.lookup l) =>
      (match (s.lane l).decision with
       | some p => lookupAtTable l p (popSecond s)
       | none => popSecond s)
    | _ => s)

/-! ## The desk pass (R45 to R47) -/

/-- The VERDICT record of a desk pass: its mark, the reason (0xFF for a GRANT) and the port (R45, R195, log entry 7). -/
def deskRecord (p : Port) (d : DeskLookup) (e : Option Entry) (t : Option Tag) (mark : Bool) (r : Option DenyReason)
    (s : State) : State :=
  handOver .decision
    { time := s.stamp, code := .verdict (if r.isSome then .deny else .grant), lane := some d.lane, tag := t,
      cred := some d.cred, cls := e.map (·.cls), dir := some d.dir,
      detail := .items { passback := mark, deskPass := true }
        [match r with | some x => BitVec.ofNat 8 x.num | none => 0xFF, BitVec.ofNat 8 p.num] } s

/-- A desk pass is refused DENIED with its reason (R45). -/
def denyDesk (p : Port) (d : DeskLookup) (e : Option Entry) (r : DenyReason) (s : State) : State :=
  answer p .denied (b1 r.num) (deskRecord p d e none false (some r) s)

/-- The record of a reservation that took its place, once its reply is known (R47). A lane that is MASKED by then makes no
LANE record (R48, log entry 39). -/
def reservedRecord (d : DeskLookup) (st : Status) (s : State) : State :=
  if d.reserved && (s.lane d.lane).state != .masked then reservationRecord d.lane st s else s

/-- What a desk pass's lookup comes to (R45). -/
inductive DeskVerdict where
  | laneState (st : LaneState)
  | deny (e : Option Entry) (r : DenyReason)
  | grant (e : Entry) (mark : Bool)
deriving DecidableEq, Repr

/-- Checks 1, 3 to 5 and 7 to 13 of a desk pass (R45). -/
def deskVerdict (s : State) (d : DeskLookup) : DeskVerdict :=
  let u := s.lane d.lane
  if !u.state.inService then .laneState u.state
  else if !modeEnables s d.lane d.dir then .deny none .laneDirection
  else match s.entry d.cred with
    | none => .deny none .unknownCredential
    | some e =>
      match e.claim with
      | some (.window _) => .deny (some e) .inUse
      | _ =>
        match permitCheck s e d.lane d.dir none with
        | some r => .deny (some e) r
        | none =>
          match passbackCheck e d.dir with
          | .error r => .deny (some e) r
          | .ok mark => .grant e mark

/-- The WAIT of a holder granted a desk pass is removed and journaled as ended by the desk (R45, R90). That a WAIT whose
claim the table has cleared, its end message not yet taken, ends in this way too is the model's choice (log entry 31). -/
def endWaitByDesk (p : Port) (e : Entry) (t : Tag) (s : State) : State :=
  if (s.waitOf e.cred).isSome then
    handOver .escort { time := s.stamp, code := .escort .deskPass, lane := some t.lane, tag := some t,
                       cred := some e.cred, detail := .items {} (b1 p.num) } (dropWait e.cred s)
  else s

/-- The lane of a removed WAIT offers its places again when a promise was withdrawn there (R90). -/
def afterDeskWait (w : Option EscortRec) (s : State) : State :=
  match w with
  | some (.wait _ _ m _ ph) => afterWait m ph s
  | _ => s

/-- A desk pass is granted: the window, the reply and the records (R45). -/
def grantDesk (p : Port) (d : DeskLookup) (e : Entry) (mark : Bool) (s : State) : State :=
  let t : Tag := ⟨d.lane, (s.lane d.lane).nextSerial⟩
  let w := s.waitOf e.cred
  let s := endWaitByDesk p e t (deskRecord p d (some e) (some t) mark none s)
  let s := createWindow d.lane e d.dir .deskPass mark s
  endEvent d.lane (afterDeskWait w (reservedRecord d .ok (answer p .ok (tagBytes t ++ [yes mark]) s)))

/-- A desk pass's lookup at the table (R45, R47). -/
def deskAtTable (p : Port) (d : DeskLookup) (s : State) : State :=
  match deskVerdict s d with
  | .laneState st => settleLane d.lane (reservedRecord d .laneState (answer p .laneState (b1 st.num) s))
  | .deny e r => settleLane d.lane (reservedRecord d .denied (denyDesk p d e r s))
  | .grant e mark => grantDesk p d e mark s

/-- DESK_PASS_LOOKUP (R45). -/
def execDeskPassLookup (p : Port) (s : State) : Host.Outcome State Fault Refusal :=
  running s (match s.arbiter.desk.get p with
    | some d =>
      if portTurn s p then
        deskAtTable p d (portServed p (s.onArbiter (fun a => { a with desk := a.desk.set p none })))
      else s
    | none => s)

/-- DESK_PASS at its lane: checks 1 and 2, then a place held with a lookup claimed, or a reservation made (R45, R46). -/
def deskPassAt (p : Port) (c : Cred) (l : Lane) (d : Direction) (s : State) : State :=
  let u := s.lane l
  if !u.state.inService then answer p .laneState (b1 u.state.num) s
  else if !modeEnables s l d then denyDesk p ⟨c, l, d, false⟩ none .laneDirection s
  else if freePlaces s l > 0 then
    s.onArbiter (fun a => { a with desk := a.desk.set p (some ⟨c, l, d, false⟩) })
  else if u.reservation.isSome then answer p .laneReserved [] s
  else s.onLane l (fun u => { u with reservation := some ⟨p, c, d, s.time⟩ })

/-- DESK_PASS (R45). -/
def execDeskPass (p : Port) (s : State) : Host.Outcome State Fault Refusal :=
  running s (match s.request p with
    | some (.deskPass c lane dir) =>
      takenByBlock p (fun t =>
        match Lane.ofNum lane.toNat, Direction.ofNum dir.toNat with
        | some l, some d => if Cred.valid c then deskPassAt p c l d t else answer p .badField [] t
        | _, _ => answer p .badField [] t) s
    | _ => s)

/-- RESERVATION_HOLD_EXPIRY (R47). -/
def execReservationHoldExpiry (l : Lane) (s : State) : Host.Outcome State Fault Refusal :=
  running s (endReservation l (fun r => decide (r.made + Config.reservationHold ≤ s.time)) .timeout [] s)

end Sys2Proof.Machine
end

