-- ==== Sys2Proof/Machine/LiftCalls.lean ====
section
/-!
DEFINITION. The dispatch unit (05_lift_dispatch_calls.md): the call queue, call states, assignments and hold-for-car.
-/
namespace Sys2Proof.Machine

/-! ## Shared -/

/-- A DISPATCH record (R108). -/
def dispatchRecord (c : DispatchCode) (t : Tag) (cred : Option Cred) (d : Detail) (s : State) : State :=
  handOver .dispatch { time := s.stamp, code := .dispatch c, lane := some t.lane, tag := some t, cred := cred, detail := d } s

/-- The CALL record of a tag. -/
def isCallOf (t : Tag) : CallRec → Bool
  | .call x _ _ _ => x == t
  | .cancel _ => false

/-- The CALL of a tag leaves the queue from wherever it stands (R99). -/
def dropCall (t : Tag) (s : State) : State := setCalls (s.dispatch.queue.filter (fun r => !isCallOf t r)) s

/-- A floor as a detail (R108). -/
def floorDetail : Option Nat → Detail
  | some f => .items {} (b1 f)
  | none => .none

/-- The controller has taken the call and may answer it (R104, R105). -/
def CallState.answerable : CallState → Bool
  | .taken | .timedOut | .answered => true
  | _ => false

/-- A window's call is settled: its state and car change, its timer stops, and it leaves ASSIGNING (R57, R100). -/
def settleCall (l : Lane) (w : Window) (c : CallState) (car : Option Nat) (s : State) : State :=
  leaveAssigning l w (onWindow l w.tag (fun x => { x with call := c, car := car, callDue := none }) s)

/-! ## Requests -/

/-- The dispatch settings of a request, if each is in range (R98). -/
def dispatchSettings (u : DispatchUnit) (d h t : Option Byte) : Option DispatchUnit :=
  (newField yesNo u.dispatch d).bind fun dispatch =>
  (newField yesNo u.holdForCar h).bind fun hold =>
  (newField (fun b => if 1 ≤ b.toNat ∧ b.toNat ≤ 10 then some b.toNat else none) u.timeout t).bind fun timeout =>
  some { u with dispatch := dispatch, holdForCar := hold, timeout := timeout }

/-- SET_DISPATCH at the dispatch unit; a change of hold-for-car is reported to the eight lanes (R98, R106). -/
def setDispatch (p : Port) (d h t : Option Byte) (s : State) : State :=
  match dispatchSettings s.dispatch d h t with
  | none => answer p .badField [] s
  | some u =>
    let former := s.dispatch.holdForCar
    let s := answer p .ok [] { s with dispatch := u }
    if u.holdForCar = former then s
    else s.onMail (fun m => { m with holds := m.holds ++ Lane.all.map (fun l => (l, u.holdForCar)) })

/-- SET_DISPATCH (R98). -/
def execSetDispatch (p : Port) (s : State) : Host.Outcome State Fault Refusal :=
  running s (match s.request p with
    | some (.setDispatch d h t) => takenByBlock p (setDispatch p d h t) s
    | _ => s)

/-- DISPATCH_STATUS: the loss counter is cleared for the DISPATCH port (R108, R109). -/
def dispatchStatus (p : Port) (s : State) : State :=
  let s' := answer p .ok (dispatchBody s) s
  if p = .dispatch then { s' with dispatch := { s'.dispatch with loss := 0 } } else s'

/-- DISPATCH_STATUS (R109). -/
def execDispatchStatus (p : Port) (s : State) : Host.Outcome State Fault Refusal :=
  running s (match s.request p with
    | some .dispatchStatus => takenByBlock p (dispatchStatus p) s
    | _ => s)

/-- Each CALL taken moves its window from POSTED to TAKEN; a CANCEL affects no window (R102). -/
def markTaken : List CallRec → State → State
  | [], s => s
  | .call t _ _ _ :: r, s => markTaken r (endEvent t.lane (onWindow t.lane t (fun w => { w with call := .taken }) s))
  | .cancel _ :: r, s => markTaken r s

/-- TAKE_CALLS at the dispatch unit (R102). -/
def takeCalls (p : Port) (s : State) : State :=
  let taken := s.dispatch.queue.take Config.recordsPerRead
  let left := s.dispatch.queue.drop Config.recordsPerRead
  answer p .ok (callsBody left.length taken) (markTaken taken (setCalls left s))

/-- TAKE_CALLS (R102). -/
def execTakeCalls (p : Port) (s : State) : Host.Outcome State Fault Refusal :=
  running s (match s.request p with
    | some .takeCalls => takenByBlock p (takeCalls p) s
    | _ => s)

/-- The window an answer can act on: live, with its call TAKEN, TIMED_OUT or ANSWERED (R104, R105). -/
def answerableWindow (s : State) (t : Tag) : Option Window :=
  match findWindow s t with
  | some w => if w.call.answerable then some w else none
  | none => none

/-- An answer that comes too late is STALE (R104, R105, R108). -/
def staleAnswer (p : Port) (t : Tag) (car : List Byte) (s : State) : State :=
  answer p .stale []
    (dispatchRecord .stale t ((findWindow s t).map (·.cred)) (.items { late := true } car) s)

/-- ASSIGN at the dispatch unit and the tag's lane (R104). -/
def assignCar (p : Port) (t : Tag) (car : Byte) (s : State) : State :=
  match answerableWindow s t with
  | some w =>
    let s := settleCall t.lane w .answered (some car.toNat) s
    let s := answer p .ok [] (dispatchRecord .assigned t (some w.cred) (.items {} [car]) s)
    indicate t (.car car.toNat) (endEvent t.lane s)
  | none => staleAnswer p t [car] s

/-- ASSIGN (R104). -/
def execAssign (p : Port) (s : State) : Host.Outcome State Fault Refusal :=
  running s (match s.request p with
    | some (.assign lane serial car) =>
      takenByBlock p (fun t =>
        match Lane.ofNum lane.toNat with
        | some l => if car.toNat > 31 then answer p .badField [] t else assignCar p ⟨l, serial⟩ car t
        | none => answer p .badField [] t) s
    | _ => s)

/-- DECLINE at the dispatch unit and the tag's lane (R105). -/
def declineCall (p : Port) (t : Tag) (s : State) : State :=
  match answerableWindow s t with
  | some w =>
    let s := settleCall t.lane w .declined none s
    let s := answer p .ok [] (dispatchRecord .declined t (some w.cred) .none s)
    indicate t .seePanel (endEvent t.lane s)
  | none => staleAnswer p t [] s

/-- DECLINE (R105). -/
def execDecline (p : Port) (s : State) : Host.Outcome State Fault Refusal :=
  running s (match s.request p with
    | some (.decline lane serial) =>
      takenByBlock p (fun t =>
        match Lane.ofNum lane.toNat with
        | some l => declineCall p ⟨l, serial⟩ t
        | none => answer p .badField [] t) s
    | _ => s)

/-! ## Timeouts, indications and reports -/

/-- A window's call timer runs out (R103). -/
def timeoutCall (l : Lane) (w : Window) (s : State) : State :=
  match w.call with
  | .posted =>
    indicate w.tag .seePanel (endEvent l
      (dispatchRecord .expired w.tag (some w.cred) (floorDetail w.floor)
        (settleCall l w .expired w.car (dropCall w.tag s))))
  | .taken =>
    indicate w.tag .seePanel (endEvent l
      (dispatchRecord .timedOut w.tag (some w.cred) (floorDetail w.floor) (settleCall l w .timedOut w.car s)))
  | _ => s

/-- CALL_TIMER_EXPIRY (R103). -/
def execCallTimerExpiry (t : Tag) (s : State) : Host.Outcome State Fault Refusal :=
  running s (match findWindow s t with
    | some w => if s.due w.callDue then timeoutCall t.lane w s else s
    | none => s)

/-- DISPATCH_INDICATION (R75, R100): discarded for a window in CLOSING or a tag that names none. -/
def execDispatchIndication (l : Lane) (s : State) : Host.Outcome State Fault Refusal :=
  running s (match takeFirst (fun x => x.1.lane == l) s.mail.indications with
    | some (x, rest) =>
      let s := s.onMail (fun m => { m with indications := rest })
      endEvent l (match findWindow s x.1 with
        | some w => if w.state = .closing then s else ask l w.dir.reader x.2 s
        | none => s)
    | none => s)

/-- Each window in ASSIGNING in turn leaves it (R57, R106). -/
def leaveAll (l : Lane) : List Window → State → State
  | [], s => s
  | w :: r, s => leaveAll l r (leaveAssigning l w s)

/-- HOLD_FOR_CAR_REPORT (R106). -/
def execHoldForCarReport (l : Lane) (s : State) : Host.Outcome State Fault Refusal :=
  running s (match takeFirst (fun x => x.1 == l) s.mail.holds with
    | some (x, rest) =>
      let s := s.onMail (fun m => { m with holds := rest })
      endEvent l (if x.2 then s else leaveAll l (s.lane l).windows s)
    | none => s)

/-! ## The end of a window (R107) -/

/-- A CANCEL joins the queue, or is lost to a full one (R107, R108). -/
def postCancel (w : Window) (s : State) : State :=
  if s.dispatch.queue.length < Config.callCapacity then setCalls (s.dispatch.queue ++ [.cancel w.tag]) s
  else dispatchRecord .cancelLost w.tag (some w.cred) .none (countLoss s)

/-- The dispatch unit's part of a removal (R107). -/
def endCall (w : Window) (s : State) : State :=
  match w.call with
  | .posted => dropCall w.tag s
  | .taken | .timedOut | .answered => if w.outcome = some .passed then s else postCancel w s
  | _ => s

end Sys2Proof.Machine
end

