-- ==== Sys2Proof/Machine/LineOps.lean ====
section
/-!
DEFINITION. What the resets and the lane requests do to a lane line's slot records (R150, R158, R160).
-/
namespace Sys2Proof.Machine

/-- QUERYING with a new round (R150). -/
def SlotRec.fresh : SlotRec := SlotRec.reset

/-- OFF, with everything cleared (R158). -/
def SlotRec.off : SlotRec := { SlotRec.reset with status := .off, round := false }

/-- A slot in JABBER goes on to the end of its lockout; any other takes a new round (R158). -/
def SlotRec.restart (r : SlotRec) : SlotRec := if r.status = .jabber then r else .fresh

/-- A timer stops where it stands (R158). -/
def Timer.pause (now : Nat) : Timer → Timer
  | .running due => .paused (due - now)
  | t => t

/-- A stopped timer goes on (R158). -/
def Timer.resume (now : Nat) : Timer → Timer
  | .paused left => .running (now + left)
  | t => t

/-- The timer runs and has run out. -/
def Timer.due (now : Nat) : Timer → Bool
  | .running d => decide (d ≤ now)
  | _ => false

/-- The timers of a slot stop where they stand (R158). -/
def SlotRec.pause (now : Nat) (r : SlotRec) : SlotRec :=
  { r with retry := r.retry.pause now, lockout := r.lockout.pause now }

/-- A slot of a resumed lane: a new round, or a lockout that goes on with its timer resumed (R158). -/
def SlotRec.resume (now : Nat) (r : SlotRec) : SlotRec :=
  SlotRec.restart { r with lockout := r.lockout.resume now }

/-- A function applied to each slot record. -/
def LineUnit.mapSlots (f : SlotRec → SlotRec) (u : LineUnit) : LineUnit :=
  { u with outer := f u.outer, inner := f u.inner, drive := f u.drive }

/-- ISOLATE_LANE on the lane line (R77, R158). -/
def LineUnit.isolate (now : Nat) (u : LineUnit) : LineUnit :=
  { u.mapSlots (SlotRec.pause now) with pendingCmd := none, await := none }

/-- RESUME_LANE on the lane line (R158). -/
def LineUnit.resume (now : Nat) (u : LineUnit) : LineUnit :=
  { u.mapSlots (SlotRec.resume now) with nextCycle := now, await := none }

/-- RESTART_LANE on the lane line: the cycle goes on, and the reply to a frame of the round it ended is void (R78, R158, log
entry 14). -/
def LineUnit.restart (u : LineUnit) : LineUnit :=
  { u.mapSlots SlotRec.restart with
    pendingCmd := none, await := u.await.map (fun a => { a with void := a.sent != .poll }) }

/-- Masking on the lane line (R53, R158). -/
def LineUnit.mask (u : LineUnit) : LineUnit :=
  { u.mapSlots (fun _ => .off) with pendingCmd := none, await := none }

/-- Unmasking on the lane line (R158). -/
def LineUnit.unmask (now : Nat) (u : LineUnit) : LineUnit :=
  { u.mapSlots (fun _ => .fresh) with nextCycle := now, await := none }

end Sys2Proof.Machine
end

