-- ==== Sys2Proof/Machine/Egress.lean ====
section
/-!
DEFINITION. The bank safety unit (07_emergency_egress_and_lockdown.md): the EGRESS_REQ input, the overtake, the restore,
lockdown, and the orders the lanes take from it.
-/
namespace Sys2Proof.Machine

/-! ## Shared -/

/-- A change of the bank safety unit. -/
def onSafety (f : SafetyUnit → SafetyUnit) (s : State) : State := { s with safety := f s.safety }

/-- A BANK record of the bank safety unit and the BANK notice of each port. -/
def safetyEvent (c : BankCode) (items : List Byte) (s : State) : State :=
  notifyAll .bank (handOver .safety
    { time := s.stamp, code := .bank c, detail := if items = [] then .none else .bank items } s)

/-- The number of lanes in FREE. -/
def freeLanes (s : State) : Nat := (Lane.all.filter (fun l => (s.lane l).state == .free)).length

/-- A lane is told to begin its restore when it is FREE (R131 to R133). -/
def tellRestore : List Lane → State → State
  | [], s => s
  | l :: r, s =>
    tellRestore r (if (s.lane l).state = .free then endEvent l (s.onLane l (fun u => { u with restoring := true })) else s)

/-- The end of a restore is tested: with no lane FREE the amnesty is claimed (R134, log entry 21). -/
def testRestoreEnd (s : State) : State :=
  if s.safety.egress = .restoring ∧ s.safety.restorePermitted = true ∧ s.safety.overtake = false ∧ freeLanes s = 0
      ∧ s.mail.amnestyDone = 0 then
    (onSafety (fun f => { f with claimStands := true }) s).onArbiter (fun a => { a with amnesty := true })
  else s

/-! ## The egress input, call and release (R126, R127, R131) -/

/-- An egress call (R127). -/
def egressCall (s : State) : State :=
  safetyEvent .egressCall []
    ((onSafety (fun f =>
        { f with overtake := true, restorePermitted := false, releaseWaiting := false, claimStands := false }) s).onMail
      (fun m => { m with overtakes := m.overtakes ++ Lane.all }))

/-- A release taken in EGRESS: RESTORING, permitted unless a request is needed (R131). -/
def beginRestore (s : State) : State :=
  let permitted := !s.safety.needsRequest
  let s := safetyEvent .restoring [yes permitted]
    (onSafety (fun f => { f with egress := .restoring, restorePermitted := permitted }) s)
  if permitted then testRestoreEnd (tellRestore Lane.all s) else s

/-- An egress release (R131). -/
def egressRelease (s : State) : State :=
  if s.safety.overtake then onSafety (fun f => { f with releaseWaiting := true }) s
  else if s.safety.egress = .egress then beginRestore s
  else s

/-- The input is compared with the taken level: the debounce timer starts at a difference and stops without one (R126). -/
def compareInput (s : State) : State :=
  onSafety (fun f =>
    { f with debounceDue :=
        if s.pins.egressReq = f.called then none
        else if f.debounceDue.isSome then f.debounceDue
        else some (s.after Config.egressDebounce) }) s

/-- EGRESS_REQ_CHANGE: the level at the pin changes; in reset it is not compared (R126, R138). -/
def execEgressReqChange (high : Bool) (s : State) : Host.Outcome State Fault Refusal :=
  let s := { s with pins := { s.pins with egressReq := high } }
  running s (compareInput s)

/-- EGRESS_DEBOUNCE_EXPIRY: the input's level becomes the taken level (R126). -/
def execEgressDebounceExpiry (s : State) : Host.Outcome State Fault Refusal :=
  running s (if s.due s.safety.debounceDue then
      let s := onSafety (fun f => { f with debounceDue := none, called := s.pins.egressReq }) s
      if s.safety.called then egressCall s else egressRelease s
    else s)

/-! ## Lane reports (R125, R127, R129, R134) -/

/-- A lane is in READY, SERVING or ALARM: the states the overtake order empties (R127 to R129). -/
def LaneState.overtaken : LaneState → Bool
  | .ready | .serving | .alarm => true
  | _ => false

/-- A report that one of the conditions of R129 rests on: an order taken, a list that became empty, a lane that left
READY, SERVING or ALARM. -/
def LaneReport.bears : LaneReport → Bool
  | .orderTaken | .listEmpty => true
  | .changed former new => former.overtaken && !new.overtaken

/-- The conditions of R129, as the unit knows them from the lanes' reports: each holds when the last report it rests on has
been taken (R129, R138, log entry 43). -/
def egressReached (s : State) : Bool :=
  s.safety.overtake && s.mail.overtakes.isEmpty && s.mail.reports.all (fun x => !x.2.bears) &&
    Lane.all.all (fun l => !(s.lane l).state.overtaken && (s.lane l).windows.isEmpty)

/-- The egress state becomes EGRESS, with its hand-ons (R113, R129). -/
def becomeEgress (s : State) : State :=
  let s := onSafety (fun f => { f with overtake := false, egress := .egress }) s
  let s := setUncertain .egress (s.onMail (fun m => { m with escortClears := m.escortClears + 1 }))
  safetyEvent .egress (b1 (freeLanes s)) s

/-- A waiting release is taken as the following event (R131). -/
def takeWaitingRelease (s : State) : State :=
  if s.safety.releaseWaiting then beginRestore (onSafety (fun f => { f with releaseWaiting := false }) s) else s

/-- EGRESS is tested (R129). -/
def testEgress (s : State) : State := if egressReached s then takeWaitingRelease (becomeEgress s) else s

/-- While the overtake is in progress a lane that enters READY, SERVING or ALARM is sent the order again (R127). -/
def sendAgain (l : Lane) (r : LaneReport) (s : State) : State :=
  match r with
  | .changed _ new =>
    if s.safety.overtake && new.overtaken then s.onMail (fun m => { m with overtakes := m.overtakes ++ [l] }) else s
  | _ => s

/-- The report is of a lane leaving FREE (R134). -/
def LaneReport.leavesFree : LaneReport → Bool
  | .changed former _ => former == .free
  | _ => false

/-- LANE_STATE_REPORT (R125). -/
def execLaneStateReport (l : Lane) (s : State) : Host.Outcome State Fault Refusal :=
  running s (match takeFirst (fun x => x.1 == l) s.mail.reports with
    | some (x, rest) =>
      let s := testEgress (sendAgain l x.2 (s.onMail (fun m => { m with reports := rest })))
      if x.2.leavesFree then testRestoreEnd s else s
    | none => s)

/-- AMNESTY_DONE: the restore has ended unless a new call came (R134, log entry 21). -/
def execAmnestyDone (s : State) : Host.Outcome State Fault Refusal :=
  running s (if s.mail.amnestyDone = 0 then s
    else
      let s := s.onMail (fun m => { m with amnestyDone := m.amnestyDone - 1 })
      if s.safety.overtake = false ∧ s.safety.egress = .restoring ∧ s.safety.claimStands = true then
        safetyEvent .restored [] (onSafety (fun f => { f with egress := .normal, claimStands := false }) s)
      else testRestoreEnd s)

/-! ## Orders the lanes take (R128, R133, R135) -/

/-- What an overtake order does at its lane (R128). -/
def overtakeLane (l : Lane) (s : State) : State :=
  if (s.lane l).state.overtaken then askBoth l .free (changeState l .free (endAll l .overtaken s))
  else if (s.lane l).state = .free then s.onLane l (fun u => { u with clearDue := none, restoring := false })
  else s

/-- OVERTAKE_ORDER (R128). -/
def execOvertakeOrder (l : Lane) (s : State) : Host.Outcome State Fault Refusal :=
  running s (if l ∈ s.mail.overtakes then
      endEvent l (report l .orderTaken (overtakeLane l (s.onMail (fun m => { m with overtakes := m.overtakes.erase l }))))
    else s)

/-- LOCKDOWN_ORDER (R135). -/
def execLockdownOrder (l : Lane) (s : State) : Host.Outcome State Fault Refusal :=
  running s (if l ∈ s.mail.lockdowns then
      endEvent l (endWhere l (fun w => w.dir == .entry && w.state.beforeTransit) .withdrawn
        (s.onMail (fun m => { m with lockdowns := m.lockdowns.erase l })))
    else s)

/-- FREE_RESTORE_CLEAR_EXPIRY (R133). -/
def execFreeRestoreClearExpiry (l : Lane) (s : State) : Host.Outcome State Fault Refusal :=
  running s (if (s.lane l).state = .free ∧ s.due (s.lane l).clearDue = true then endEvent l (backToReady l s) else s)

/-! ## Requests (R132, R135, R137) -/

/-- RESTORE at the bank safety unit (R132). The byte of its body is the model's choice: *taken* 1, *not taken* 0 (log entry
7). -/
def restore (p : Port) (s : State) : State :=
  if s.safety.egress = .restoring ∧ s.safety.overtake = false ∧ s.safety.restorePermitted = false then
    testRestoreEnd (tellRestore Lane.all (answer p .ok [1]
      (onSafety (fun f => { f with restorePermitted := true }) s)))
  else answer p .ok (0 :: b1 s.safety.egress.num) s

/-- RESTORE (R132). -/
def execRestore (p : Port) (s : State) : Host.Outcome State Fault Refusal :=
  running s (match s.request p with
    | some .restore => takenByBlock p (restore p) s
    | _ => s)

/-- SET_EGRESS (R132). -/
def execSetEgress (p : Port) (s : State) : Host.Outcome State Fault Refusal :=
  running s (match s.request p with
    | some (.setEgress v) =>
      takenByBlock p (fun t =>
        match yesNo v with
        | some b => answer p .ok [] (onSafety (fun f => { f with needsRequest := b }) t)
        | none => answer p .badField [] t) s
    | _ => s)

/-- The lockdown flag changes (R135). -/
def setLockdown (on : Bool) (s : State) : State :=
  let s := safetyEvent .lockdown [yes on] (onSafety (fun f => { f with lockdown := on }) s)
  if on then
    s.onMail (fun m => { m with lockdowns := m.lockdowns ++ Lane.all, escortLockdowns := m.escortLockdowns + 1 })
  else s

/-- LOCKDOWN at the bank safety unit (R135). -/
def lockdown (p : Port) (v : Byte) (s : State) : State :=
  match yesNo v with
  | none => answer p .badField [] s
  | some b => answer p .ok [] (if s.safety.lockdown = b then s else setLockdown b s)

/-- LOCKDOWN (R135). -/
def execLockdown (p : Port) (s : State) : Host.Outcome State Fault Refusal :=
  running s (match s.request p with
    | some (.lockdown v) => takenByBlock p (lockdown p v) s
    | _ => s)

/-- SAFETY_STATUS (R137). -/
def execSafetyStatus (p : Port) (s : State) : Host.Outcome State Fault Refusal :=
  running s (match s.request p with
    | some .safetyStatus => takenByBlock p (fun t => answer p .ok (safetyBody t) t) s
    | _ => s)

end Sys2Proof.Machine
end

