-- ==== Sys2Proof/Machine/Lanes.lean ====
section
/-!
DEFINITION. The lane sequencers' commands (03_lanes_and_passage_windows.md): the lane requests, sense events, lane timers,
displays, removals and withdrawals, and what a lane does when its modules are agreed or lost.
-/
namespace Sys2Proof.Machine

/-! ## Modules agreed and lost (R49, R74, R156) -/

/-- A lane that leaves ENUMERATING or FAULT goes to FREE rather than READY (R49). -/
def entersFree (s : State) : Bool :=
  s.safety.egress == .egress || (s.safety.egress == .restoring && !s.safety.restorePermitted)

/-- The leaf drive and at least one reader hold an agreed profile (R49). -/
def modulesAgreed (s : State) (l : Lane) : Bool :=
  agreedAt s l .drive && (agreedAt s l .outer || agreedAt s l .inner)

/-- A module became AGREED: a lane in ENUMERATING or FAULT may leave it (R49, R74, R156). For a reader that becomes AGREED
in a lane already FREE no indication is requested: the model's choice, beside R130 (log entry 49). -/
def moduleAgreed (l : Lane) (s : State) : State :=
  let st := (s.lane l).state
  endEvent l
    (if (st = .enumerating ∨ st = .fault) ∧ modulesAgreed s l = true then
      if entersFree s then askBoth l .free (changeState l .free s) else backToReady l s
    else s)

/-- The leaf drive is lost (R49). -/
def leafLost (l : Lane) (s : State) : State :=
  endEvent l
    (match (s.lane l).state with
     | .ready | .serving | .alarm | .free => askBoth l .stop (changeState l .fault (endAll l .faulted s))
     | _ => s)

/-- A reader is lost: its display queue is cleared (R49, R74). -/
def readerLost (l : Lane) (rd : Reader) (s : State) : State := endEvent l (clearDisplay l rd s)

/-- A module in service is lost (R49, R139). -/
def moduleLost (l : Lane) (x : Slot) (s : State) : State :=
  match x with
  | .drive => leafLost l s
  | .outer => readerLost l .outer s
  | .inner => readerLost l .inner s

/-! ## Settings and modes (R51, R52) -/

/-- A direction that the former mode enabled and the new one does not (R52). -/
def loses (former new : Mode) (d : Direction) : Bool := former.enables d && !new.enables d

/-- The effects of directions no longer enabled (R47, R52). -/
def closeDirections (l : Lane) (lost : Direction → Bool) (s : State) : State :=
  endReservation l (fun r => lost r.dir) .denied (b1 DenyReason.laneDirection.num)
    (endWhere l (fun w => lost w.dir && w.state.beforeTransit) .withdrawn s)

/-- A lane's effective mode changes (R52, R72). -/
def modeChanged (l : Lane) (former new : Mode) (s : State) : State :=
  let s := closeDirections l (loses former new) s
  if loses new former .entry then offerPlaces l s else s

/-- A number within bounds (R51). -/
def within (low high : Nat) (b : Byte) : Option Nat := if low ≤ b.toNat ∧ b.toNat ≤ high then some b.toNat else none

/-- The settings a SET_LANE gives, if each is in range (R51). -/
def laneSettings (x : LaneSettings) (c : LaneChange) : Option LaneSettings :=
  (newField (fun b => Mode.ofNum b.toNat) x.mode c.mode).bind fun mode =>
  (newField (fun b => ModeSource.ofNum b.toNat) x.source c.source).bind fun source =>
  (newField (within 2 30) x.openTime c.openTime).bind fun openTime =>
  (newField (within 4 60) x.transitLimit c.transitLimit).bind fun transitLimit =>
  (newField (within 1 10) x.clearTime c.clearTime).bind fun clearTime =>
  (newField yesNo x.alarmLatch c.alarmLatch).bind fun alarmLatch =>
  (newField givenSet3 x.allowedLeaf c.allowedLeaf).bind fun allowedLeaf =>
  (newField givenSet3 x.allowedMedia c.allowedMedia).bind fun allowedMedia =>
  some ⟨mode, source, openTime, transitLimit, clearTime, alarmLatch, allowedLeaf, allowedMedia⟩

/-- The settings of a lane take their new values (R51, R52, R69). -/
def applySettings (l : Lane) (x : LaneSettings) (s : State) : State :=
  let former := effectiveMode s l
  let s := s.onLane l (fun u => { u with settings := x })
  let s := modeChanged l former (effectiveMode s l) s
  let s := if (s.lane l).awaitingReset && !x.alarmLatch then backToReady l s else s
  endEvent l s

/-- SET_LANE at the lane sequencer (R51). -/
def setLane (p : Port) (l : Lane) (c : LaneChange) (s : State) : State :=
  match laneSettings (s.lane l).settings c with
  | none => answer p .badField [] s
  | some x => applySettings l x (answer p .ok [] s)

/-- A request that names a lane is taken at it; a lane above 7 is BAD_FIELD (R51, R69, R76 to R79). -/
def atLane (p : Port) (b : Byte) (f : Lane → State → State) (s : State) : State :=
  takenByBlock p (fun t =>
    match Lane.ofNum b.toNat with
    | some l => f l t
    | none => answer p .badField [] t) s

/-- SET_LANE (R51). -/
def execSetLane (p : Port) (s : State) : Host.Outcome State Fault Refusal :=
  running s (match s.request p with
    | some (.setLane b c) => atLane p b (fun l => setLane p l c) s
    | _ => s)

/-- The bank mode changes at each lane that follows it (R52). -/
def bankModeChanged (former new : Mode) : List Lane → State → State
  | [], s => s
  | l :: r, s =>
    bankModeChanged former new r
      (if (s.lane l).settings.source = .bank then endEvent l (modeChanged l former new s) else s)

/-- SET_BANK_MODE (R52). -/
def execSetBankMode (p : Port) (s : State) : Host.Outcome State Fault Refusal :=
  running s (match s.request p with
    | some (.setBankMode b) =>
      takenByBlock p (fun t =>
        match Mode.ofNum b.toNat with
        | some m =>
          bankModeChanged t.bank.mode m Lane.all (answer p .ok [] { t with bank := { t.bank with mode := m } })
        | none => answer p .badField [] t) s
    | _ => s)

/-! ## Mask, isolation, restart (R53, R77, R78) -/

/-- A lane becomes masked (R53, R158). -/
def maskLane (l : Lane) (s : State) : State :=
  let s := changeState l .masked (endAll l .aborted s)
  endEvent l (clearDisplays l (s.onLine l LineUnit.mask))

/-- A lane becomes unmasked (R53, R158). -/
def unmaskLane (l : Lane) (s : State) : State :=
  let s := changeState l .enumerating s
  endEvent l (clearDisplays l (s.onLine l (LineUnit.unmask s.time)))

/-- Each lane whose membership of the mask changes (R53). -/
def applyMask (former new : LaneSet) : List Lane → State → State
  | [], s => s
  | l :: r, s =>
    applyMask former new r
      (if hasLane new l && !hasLane former l then maskLane l s
       else if hasLane former l && !hasLane new l then unmaskLane l s
       else s)

/-- SET_LANE_MASK (R53). -/
def execSetLaneMask (p : Port) (s : State) : Host.Outcome State Fault Refusal :=
  running s (match s.request p with
    | some (.setLaneMask b) =>
      takenByBlock p (fun t =>
        applyMask t.bank.mask b Lane.all (answer p .ok [] { t with bank := { t.bank with mask := b } })) s
    | _ => s)

/-- ISOLATE_LANE at the lane (R77, R158). -/
def isolateLane (p : Port) (l : Lane) (s : State) : State :=
  if (s.lane l).state.unaddressed then answer p .laneState [] s
  else
    let s := changeState l .isolated (endAll l .aborted (answer p .ok [] s))
    endEvent l (clearDisplays l (s.onLine l (LineUnit.isolate s.time)))

/-- ISOLATE_LANE (R77). -/
def execIsolateLane (p : Port) (s : State) : Host.Outcome State Fault Refusal :=
  running s (match s.request p with
    | some (.isolateLane b) => atLane p b (isolateLane p) s
    | _ => s)

/-- RESUME_LANE at the lane (R77, R158). -/
def resumeLane (p : Port) (l : Lane) (s : State) : State :=
  if (s.lane l).state = .isolated then
    let s := changeState l .enumerating (answer p .ok [] s)
    endEvent l (clearDisplays l (s.onLine l (LineUnit.resume s.time)))
  else answer p .laneState [] s

/-- RESUME_LANE (R77). -/
def execResumeLane (p : Port) (s : State) : Host.Outcome State Fault Refusal :=
  running s (match s.request p with
    | some (.resumeLane b) => atLane p b (resumeLane p) s
    | _ => s)

/-- RESTART_LANE at the lane (R78, R158). Sense items handed over before it and not yet taken are taken after it (log entry
35). -/
def restartLane (p : Port) (l : Lane) (s : State) : State :=
  if (s.lane l).state.unaddressed then answer p .laneState [] s
  else
    let s := changeState l .enumerating (endAll l .aborted (answer p .ok [] s))
    let s := s.onLane l (fun u => { u with zones := ⟨false, false, false⟩, obstruction := false, obstructDue := none })
    endEvent l (clearDisplays l (s.onLine l LineUnit.restart))

/-- RESTART_LANE (R78). -/
def execRestartLane (p : Port) (s : State) : Host.Outcome State Fault Refusal :=
  running s (match s.request p with
    | some (.restartLane b) => atLane p b (restartLane p) s
    | _ => s)

/-! ## Alarm reset, counters, status (R69, R76, R79) -/

/-- ALARM_RESET at the lane (R69). -/
def alarmReset (p : Port) (l : Lane) (s : State) : State :=
  let u := s.lane l
  if u.state ≠ .alarm then answer p .laneState [] s
  else if !u.windows.isEmpty || !u.zones.empty || u.obstruction then answer p .laneOccupied [] s
  else
    let s := answer p .ok [] s
    endEvent l (if u.awaitingReset then backToReady l s else s.onLane l (fun u => { u with acknowledged := true }))

/-- ALARM_RESET (R69). -/
def execAlarmReset (p : Port) (s : State) : Host.Outcome State Fault Refusal :=
  running s (match s.request p with
    | some (.alarmReset b) => atLane p b (alarmReset p) s
    | _ => s)

/-- READ_LANE_COUNTERS at the lane (R76). -/
def readCounters (p : Port) (l : Lane) (s : State) : State :=
  (answer p .ok (countersBody (s.lane l).counters) s).onLane l (fun u => { u with counters := .reset })

/-- READ_LANE_COUNTERS (R76). -/
def execReadLaneCounters (p : Port) (s : State) : Host.Outcome State Fault Refusal :=
  running s (match s.request p with
    | some (.readLaneCounters b) => atLane p b (readCounters p) s
    | _ => s)

/-- LANE_STATUS (R79). -/
def execLaneStatus (p : Port) (s : State) : Host.Outcome State Fault Refusal :=
  running s (match s.request p with
    | some (.laneStatus b) => atLane p b (fun l t => answer p .ok (laneBody t l) t) s
    | _ => s)

/-! ## Sense events (R60 to R64, R67) -/

/-- The lane's oldest sense item waits and is of the kind asked for: it is taken, an event of its own at the lane (R60).
A lane that is MASKED or ISOLATED is not addressed, and an item left over from before is dropped (R158, log entry 35). -/
def senseStep {α : Type} (l : Lane) (read : SenseItem → Option α) (f : α → State → State) (s : State) : State :=
  match takeFirst (fun x => x.1 == l) s.mail.sense with
  | some (x, rest) =>
    (match read x.2 with
     | some a =>
       let s := s.onMail (fun m => { m with sense := rest })
       if (s.lane l).state.unaddressed then s else endEvent l (f a s)
     | none => s)
  | none => s

/-- READY, SERVING and ALARM: the states in which crossings are attributed (R60). -/
def LaneState.attributes : LaneState → Bool
  | .ready | .serving | .alarm => true
  | _ => false

/-- A crossing is attributed only in READY, SERVING and ALARM (R60). -/
def attributed (l : Lane) (f : State → State) (s : State) : State :=
  if (s.lane l).state.attributes then f s else s

/-- The direction that a body going in, or back out, at a side concerns (R60). -/
def SenseSide.inward : SenseSide → Direction
  | .outside => .entry | .inside => .exit

/-- The direction that a body going out at a side concerns (R60). -/
def SenseSide.outward : SenseSide → Direction
  | .inside => .entry | .outside => .exit

/-- A window of a direction in a state. -/
def Window.isIn (d : Direction) (st : WinState) (w : Window) : Bool := w.dir == d && w.state == st

/-- CROSS_IN (R61). -/
def crossIn (l : Lane) (d : Direction) (s : State) : State :=
  let ws := (s.lane l).windows
  match ws.find? (Window.isIn d .opened) with
  | some w =>
    let due := s.after ((s.lane l).settings.transitLimit * 1000)
    onWindow l w.tag (fun x => { x with state := .transit, openDue := none, transitDue := some due }) s
  | none => raiseAlarm l (if ws.any (Window.isIn d .transit) then .tailgate else .intrusion) s

/-- CROSS_IN (R60, R61). -/
def execCrossIn (l : Lane) (s : State) : Host.Outcome State Fault Refusal :=
  running s (senseStep l (fun x => match x with | .event (.crossIn side) => some side | _ => none)
    (fun side => attributed l (crossIn l side.inward)) s)

/-- PAIR (R62). -/
def pairSeen (l : Lane) (d : Direction) (s : State) : State :=
  if ((s.lane l).windows.filter (fun w => Window.isIn d .opened w || Window.isIn d .transit w)).length ≥ 2 then s
  else raiseAlarm l .tailgate s

/-- PAIR (R60, R62). -/
def execPair (l : Lane) (s : State) : Host.Outcome State Fault Refusal :=
  running s (senseStep l (fun x => match x with | .event (.pair side) => some side | _ => none)
    (fun side => attributed l (pairSeen l side.inward)) s)

/-- CROSS_LEAF (R63). -/
def crossLeaf (l : Lane) (d : Direction) (s : State) : State :=
  match (s.lane l).windows.find? (fun w => Window.isIn d .transit w && !w.pastLeaf) with
  | some w => onWindow l w.tag (fun x => { x with pastLeaf := true }) s
  | none => s

/-- CROSS_LEAF (R60, R63). -/
def execCrossLeaf (l : Lane) (s : State) : Host.Outcome State Fault Refusal :=
  running s (senseStep l (fun x => match x with | .event (.crossLeaf d) => some d | _ => none)
    (fun d => attributed l (crossLeaf l d)) s)

/-- A LANE record of an event at the lane (R63, R64). -/
def laneRecord (l : Lane) (c : LaneCode) (d : Detail) (s : State) : State :=
  handOver (.sequencer l) { time := s.stamp, code := .lane c, lane := some l, detail := d } s

/-- CROSS_OUT (R63). -/
def crossOut (l : Lane) (side : SenseSide) (s : State) : State :=
  match (s.lane l).windows.find? (Window.isIn side.outward .transit) with
  | some w => endWindow l w .passed s
  | none => laneRecord l .unmatchedExit (.items {} (b1 side.num)) s

/-- CROSS_OUT (R60, R63). -/
def execCrossOut (l : Lane) (s : State) : Host.Outcome State Fault Refusal :=
  running s (senseStep l (fun x => match x with | .event (.crossOut side) => some side | _ => none)
    (fun side => attributed l (crossOut l side)) s)

/-- RETREAT (R64): the newest window in TRANSIT of the direction. -/
def retreat (l : Lane) (d : Direction) (s : State) : State :=
  match (s.lane l).windows.reverse.find? (Window.isIn d .transit) with
  | some w =>
    if w.retreats ≠ 0 then endWindow l w .unused s
    else if (s.lane l).state = .alarm then endWindow l w .withdrawn s
    else openWindow l w (onWindow l w.tag (fun x => { x with retreats := 1, pastLeaf := false }) s)
  | none => laneRecord l .unmatchedRetreat .none s

/-- RETREAT (R60, R64). -/
def execRetreat (l : Lane) (s : State) : Host.Outcome State Fault Refusal :=
  running s (senseStep l (fun x => match x with | .event (.retreat side) => some side | _ => none)
    (fun side => attributed l (retreat l side.inward)) s)

/-- OBSTRUCT_ON (R60, R67): the timer runs in READY, SERVING and ALARM alone. -/
def obstructOn (l : Lane) (s : State) : State :=
  if (s.lane l).obstruction then s
  else
    let due := s.after Config.obstructionLimit
    s.onLane l (fun u => { u with obstruction := true, obstructDue := if u.state.attributes then some due else none })

/-- OBSTRUCT_ON (R67). -/
def execObstructOn (l : Lane) (s : State) : Host.Outcome State Fault Refusal :=
  running s (senseStep l (fun x => match x with | .event .obstructOn => some () | _ => none) (fun _ => obstructOn l) s)

/-- OBSTRUCT_OFF (R67). -/
def execObstructOff (l : Lane) (s : State) : Host.Outcome State Fault Refusal :=
  running s (senseStep l (fun x => match x with | .event .obstructOff => some () | _ => none)
    (fun _ t => t.onLane l (fun u => { u with obstruction := false, obstructDue := none })) s)

/-- SENSE_STATE_UPDATE (R60). -/
def execSenseStateUpdate (l : Lane) (s : State) : Host.Outcome State Fault Refusal :=
  running s (senseStep l (fun x => match x with | .update pos z => some (pos, z) | _ => none)
    (fun a t => t.onLane l (fun u => { u with leafPos := a.1, zones := a.2 })) s)

/-! ## Timers (R58, R65 to R67, R69, R73) -/

/-- OPEN_TIMER_EXPIRY (R65). -/
def execOpenTimerExpiry (t : Tag) (s : State) : Host.Outcome State Fault Refusal :=
  running s (match findWindow s t with
    | some w => if s.due w.openDue then endEvent t.lane (endWindow t.lane w .unused s) else s
    | none => s)

/-- TRANSIT_TIMER_EXPIRY (R66). -/
def execTransitTimerExpiry (t : Tag) (s : State) : Host.Outcome State Fault Refusal :=
  running s (match findWindow s t with
    | some w =>
      if s.due w.transitDue then endEvent t.lane (raiseAlarm t.lane .loiter (endWindow t.lane w .stalled s)) else s
    | none => s)

/-- OBSTRUCTION_TIMER_EXPIRY (R67). -/
def execObstructionTimerExpiry (l : Lane) (s : State) : Host.Outcome State Fault Refusal :=
  running s (if s.due (s.lane l).obstructDue then
      endEvent l (raiseAlarm l .obstructed (s.onLane l (fun u => { u with obstructDue := none })))
    else s)

/-- CLEAR_TIMER_EXPIRY (R69). -/
def execClearTimerExpiry (l : Lane) (s : State) : Host.Outcome State Fault Refusal :=
  running s (if (s.lane l).state = .alarm ∧ s.due (s.lane l).clearDue = true then
      endEvent l
        (if (s.lane l).settings.alarmLatch && !(s.lane l).acknowledged then
          s.onLane l (fun u => { u with clearDue := none, awaitingReset := true })
        else backToReady l s)
    else s)

/-- Each PACED window in turn is tested again (R58). -/
def retestPaced (l : Lane) : List Window → State → State
  | [], s => s
  | w :: r, s =>
    retestPaced l r (if w.state = .paced ∧ paceHolds s l w.dir = false then openWindow l w s else s)

/-- PACE_INTERVAL_EXPIRY (R58): once the interval has passed since the pace mark. -/
def execPaceIntervalExpiry (l : Lane) (s : State) : Host.Outcome State Fault Refusal :=
  running s (if (s.lane l).windows.any (fun w => w.state == .paced && !paceHolds s l w.dir) then
      endEvent l (retestPaced l (s.lane l).windows s)
    else s)

/-- ACTIVE_ACTION_UPDATE (R120). -/
def execActiveActionUpdate (l : Lane) (s : State) : Host.Outcome State Fault Refusal :=
  running s (match takeFirst (fun x => x.1 == l) s.mail.actions with
    | some (x, rest) =>
      let s := (s.onMail (fun m => { m with actions := rest })).onLane l (fun u => { u with action := x.2 })
      endEvent l (retestPaced l (s.lane l).windows s)
    | none => s)

/-- DISPLAY_HOLD_EXPIRY (R73). -/
def execDisplayHoldExpiry (l : Lane) (rd : Reader) (s : State) : Host.Outcome State Fault Refusal :=
  running s (if s.due ((s.lane l).display rd).holdDue then
      (match ((s.lane l).display rd).waiting with
       | some i => showNow l rd i s
       | none => s.onLane l (fun u => u.onDisplay rd (fun d => { d with holdDue := none })))
    else s)

/-! ## Ends of windows (R13, R71) -/

/-- The PASSAGE or WINDOW record of a removed window (R71). -/
def windowRecord (w : Window) (o : WinOutcome) (gone : Bool) (s : State) : State :=
  handOver (.sequencer w.tag.lane)
    { time := s.stamp, code := if o = .passed then .passage else .window o, lane := some w.tag.lane, tag := some w.tag,
      cred := some w.cred, cls := some w.cls, dir := some w.dir, origin := some w.origin,
      detail := .items { passback := w.passback, entryGone := gone } [] } s

/-- A PASSED window is handed to the occupancy and escort units (R71). -/
def handPassage (w : Window) (r : PostingResult) (s : State) : State :=
  s.onMail (fun m =>
    { m with
      passages := m.passages ++ [⟨w.tag.lane, w.cls, w.dir⟩]
      sponsors := m.sponsors ++ [⟨w.tag.lane, w.cred, w.cls, w.dir, r.gone, r.refs⟩] })

/-- A lane in SERVING with an empty list goes to READY, and BLANK is asked for both displays (R50, R75). -/
def settleServing (l : Lane) (s : State) : State :=
  if (s.lane l).state = .serving ∧ (s.lane l).windows = [] then askBoth l .blank (changeState l .ready s) else s

/-- The removal of a window: its end handed on, the lane's list and state, and the freed place offered (R71, R72). -/
def removeWindow (l : Lane) (w : Window) (r : PostingResult) (s : State) : State :=
  let o := w.outcome.getD .unused
  let s := s.onLane l (fun u => { u with windows := u.windows.filter (fun x => x.tag != w.tag) })
  let s := windowRecord w o r.gone (endCall w s)
  let s := if o = .passed then handPassage w r s else s
  let s := if (s.lane l).windows = [] then report l .listEmpty s else s
  settleLane l (settleServing l s)

/-- WINDOW_REMOVAL (R71). -/
def execWindowRemoval (l : Lane) (s : State) : Host.Outcome State Fault Refusal :=
  running s (match takeFirst (fun x => x.tag.lane == l) s.mail.results with
    | some (r, rest) =>
      let s := s.onMail (fun m => { m with results := rest })
      (match findWindow s r.tag with
       | some w => removeWindow l w r s
       | none => s)
    | none => s)

/-- WINDOW_WITHDRAWAL (R13). -/
def execWindowWithdrawal (l : Lane) (s : State) : Host.Outcome State Fault Refusal :=
  running s (match takeFirst (fun t => t.lane == l) s.mail.withdrawals with
    | some (t, rest) =>
      let s := s.onMail (fun m => { m with withdrawals := rest })
      endEvent l (match findWindow s t with
        | some w => if w.state.beforeTransit then endWindow l w .withdrawn s else s
        | none => s)
    | none => s)

end Sys2Proof.Machine
end

