-- ==== Sys2Proof/Machine/Lines.lean ====
section
/-!
DEFINITION. The lane line controllers (08_the_lane_lines.md): the cycle, replies and their judgement, query rounds, loss,
jabber and strays.
-/
namespace Sys2Proof.Machine

/-! ## Slot records -/

/-- A change of one slot record of a lane. -/
def onSlot (l : Lane) (x : Slot) (f : SlotRec → SlotRec) (s : State) : State := s.onLine l (fun u => u.onSlot x f)

/-- A slot record of a lane. -/
def State.slot (s : State) (l : Lane) (x : Slot) : SlotRec := (s.line l).slot x

/-- A LANE record of the lane line controller, whose detail begins with the slot (R142, R149, R156). -/
def lineRecord (l : Lane) (c : LaneCode) (x : Slot) (m : Marks) (more : List Byte) (s : State) : State :=
  handOver (.line l) { time := s.stamp, code := .lane c, lane := some l, detail := .items m (b1 x.num ++ more) } s

/-- The retry timer, or the lockout timer, started now (R142, R149, R155). -/
def oneSecond (s : State) : Timer := .running (s.after Config.retryInterval)

/-! ## Loss and jabber (R142, R149) -/

/-- A slot goes to LOST (R149). -/
def loseSlot (l : Lane) (x : Slot) (s : State) : State :=
  let t := oneSecond s
  moduleLost l x (notifyAll .lane (lineRecord l .moduleLost x {} []
    (onSlot l x (fun r =>
      { r with status := .lost, profile := none, inferred := false, miss := 0, round := false, retry := t }) s)))

/-- A poll of an AGREED module without a good reply: a miss, or the loss of the module at the third in a row (R149). -/
def missPoll (l : Lane) (x : Slot) (s : State) : State :=
  if (s.slot l x).status != .agreed then s
  else if (s.slot l x).miss + 1 < 3 then onSlot l x (fun r => { r with miss := r.miss + 1 }) s else loseSlot l x s

/-- A reply too long for a frame: the slot goes to JABBER (R142). -/
def jabberSlot (l : Lane) (x : Slot) (s : State) : State :=
  let wasAgreed := (s.slot l x).status == .agreed
  let t := oneSecond s
  let s := notifyAll .lane (lineRecord l .moduleJabber x {} [] (countLineError l
    (onSlot l x (fun _ => { SlotRec.reset with status := .jabber, round := false, lockout := t }) s)))
  if wasAgreed then moduleLost l x s else s

/-! ## Results of a query round (R151 to R156) -/

/-- The slot becomes AGREED (R152 to R154, R156). -/
def agreeSlot (l : Lane) (x : Slot) (p : Profile) (inferred : Bool) (s : State) : State :=
  moduleAgreed l (lineRecord l .moduleAgreed x { inferred := inferred } [p.byte]
    (onSlot l x (fun r =>
      { r with status := .agreed, profile := some p, inferred := inferred, refusal := none, miss := 0, round := false,
               prior := none, retry := .stopped }) s))

/-- The slot goes to REFUSED; a retry round with the same result makes no record (R151, R156). -/
def refuseSlot (l : Lane) (x : Slot) (why : RefusalReason) (s : State) : State :=
  let before := (s.slot l x).prior
  let t := oneSecond s
  let s := onSlot l x (fun r =>
    { r with status := .refused, profile := none, inferred := false, refusal := some why, round := false,
             prior := none, retry := t }) s
  if before = some (.refused why) then s else lineRecord l .moduleRefused x {} (b1 why.num) s

/-- The round ends with no answer: SILENT, or still LOST (R155, R156). -/
def noAnswer (l : Lane) (x : Slot) (s : State) : State :=
  let before := (s.slot l x).prior
  let wasLost := (s.slot l x).status == .lost
  let t := oneSecond s
  let s := onSlot l x (fun r =>
    { r with status := if wasLost then .lost else .silent, round := false, prior := none, retry := t }) s
  if wasLost || before == some .silent then s else lineRecord l .moduleSilent x {} [] s

/-- The highest-ranking leaf profile of a set (R152). -/
def bestLeaf (v : LeafSet) : Option LeafProfile := [.overlapPair, .singlePair, .singleBasic].find? (hasLeaf v)

/-- The profile that an advertised leaf profile set agrees to (R152). -/
def weighLeaf (s : State) (l : Lane) (v : LeafSet) : Option Profile :=
  (bestLeaf (v &&& (s.lane l).settings.allowedLeaf)).map .leaf

/-- The profile that advertised media agree to (R153). -/
def weighReader (s : State) (l : Lane) (m : MediaSet) (display : Bool) : Option Profile :=
  let both := m &&& (s.lane l).settings.allowedMedia
  if both = 0 then none else some (.reader both display)

/-- The weighing's result: AGREED, or REFUSED for MISMATCH (R152, R153). -/
def settleRound (l : Lane) (x : Slot) (inferred : Bool) (p : Option Profile) (s : State) : State :=
  match p with
  | some q => agreeSlot l x q inferred s
  | none => refuseSlot l x .mismatch s

/-- The inferred profile of a legacy module (R154). -/
def inferredProfile : Slot → Profile
  | .drive => .leaf .singleBasic
  | _ => .reader 1 false

/-- The inferred profile weighed as if advertised (R154). -/
def weighInferred (s : State) (l : Lane) : Slot → Option Profile
  | .drive => weighLeaf s l 4
  | _ => weighReader s l 1 false

/-- Legacy inference (R154, R159). -/
def inferSlot (l : Lane) (x : Slot) (s : State) : State :=
  settleRound l x true (if s.bank.qualified then weighInferred s l x else some (inferredProfile x)) s

/-! ## Good polled replies (R145, R147, R148) -/

/-- The media of a reader's agreed profile. -/
def agreedMedia (s : State) (l : Lane) (x : Slot) : MediaSet :=
  match (s.slot l x).profile with
  | some (.reader m _) => m
  | _ => 0

/-- The direction of a reader's slot (R28). -/
def slotDirection : Slot → Direction
  | .inner => .exit
  | _ => .entry

/-- A good PRESENTATION (R147). -/
def takePresentation (l : Lane) (x : Slot) (c : Cred) (m : Medium) (s : State) : State :=
  if !Cred.valid c then countLineError l s
  else if !hasMedium (agreedMedia s l x) m then
    endEvent l (countDenial l (ask l (slotDirection x).reader .stop s))
  else startDecision l ⟨slotDirection x, c, m⟩ s

/-- A leaf position confirms a command (R145). -/
def confirms (p : LeafPosition) : LeafCmd → Bool
  | .close => p == .closing || p == .closed
  | .openIn => p == .opening || p == .openIn
  | .openOut => p == .opening || p == .openOut
  | .hold => p == .held || p == .closed
  | .holdOpen => p == .held

/-- A good SENSE: handed to the lane sequencer, then tested against the pending LEAF_CMD (R60, R145, R148). -/
def takeSense (l : Lane) (evs : List SenseEvent) (pos : LeafPosition) (z : Zones) (s : State) : State :=
  let items : List SenseItem := evs.map .event ++ [.update pos z]
  (s.onMail (fun m => { m with sense := m.sense ++ items.map (fun i => (l, i)) })).onLine l
    (fun u => { u with pendingCmd := u.pendingCmd.filter (fun c => !confirms pos c) })

/-- What a good polled reply brings (R147, R148). -/
def takePolled (l : Lane) (x : Slot) (g : GoodReply) (s : State) : State :=
  match g with
  | .presentation c m => takePresentation l x c m s
  | .sense evs pos z => takeSense l evs pos z s
  | _ => s

/-- A good reply to the frame sent (R147 to R149, R151 to R154). -/
def takeGood (l : Lane) (a : Await) (g : GoodReply) (s : State) : State :=
  match a.sent, g with
  | .query, .leafProfile v => settleRound l a.slot false (weighLeaf s l v) s
  | .query, .readerProfile m d => settleRound l a.slot false (weighReader s l m d) s
  | .query, _ => s
  | .poll, g => takePolled l a.slot g (onSlot l a.slot (fun r => { r with miss := 0 }) s)
  | .probe, g =>
    let s := inferSlot l a.slot s
    if agreedAt s l a.slot then takePolled l a.slot g s else s

/-- What the answer to a frame, or its absence, does to the slot: nothing to a frame of a round that a RESTART_LANE ended
(R158, log entry 14). -/
def Await.unlessVoid (a : Await) (f : State → State) (s : State) : State := if a.void then s else f s

/-- A frame that got no good answer: a miss, an unanswered try, or the end of the round (R149, R150). -/
def unanswered (l : Lane) (x : Slot) (sent : SentKind) (s : State) : State :=
  match sent with
  | .poll => missPoll l x s
  | .query => s
  | .probe => noAnswer l x s

/-- A discarded reply is a line error, and leaves its frame unanswered; a wrong rate refuses a module in a query round
(R141, R151). -/
def takeBad (l : Lane) (a : Await) (rate : Bool) (s : State) : State :=
  if rate && a.sent != .poll then a.unlessVoid (refuseSlot l a.slot .rate) s
  else a.unlessVoid (unanswered l a.slot a.sent) (countLineError l s)

/-! ## The cycle (R140, R144 to R146, R150) -/

/-- The frame at a position of the cycle collides. -/
def collides (c : Collisions) (position : Nat) : Bool := c.getLsbD (position - 1)

/-- The position of a slot's frame (R144). -/
def slotPosition : Slot → Nat
  | .drive => 4 | .outer => 5 | .inner => 6

/-- The slots whose positions follow (R144). -/
def slotFollowing : Slot → List Slot
  | .drive => [.outer, .inner]
  | .outer => [.inner]
  | .inner => []

/-- A frame is sent (R140). -/
def emit (l : Lane) (marks : List LineMark) (s : State) : State :=
  s.onLine l (fun u => { u with frames := u.frames ++ [marks] })

/-- Position 1: the pending LEAF_CMD, which stays pending (R145). -/
def sendCommand (l : Lane) (coll : Collisions) (s : State) : State :=
  match (s.line l).pendingCmd with
  | some c =>
    if !agreedAt s l .drive then s
    else if collides coll 1 then countLineError l s
    else emit l (leafFrame c) s
  | none => s

/-- A reader's pending SHOW. -/
def LineUnit.show (u : LineUnit) : Reader → Option Indication
  | .outer => u.showOuter
  | .inner => u.showInner

/-- Positions 2 and 3: a reader's pending SHOW, which stays pending only when it collides (R140, R146). -/
def sendShow (l : Lane) (rd : Reader) (position : Nat) (coll : Collisions) (s : State) : State :=
  match (s.line l).show rd with
  | some i =>
    if !agreedAt s l rd.slot then s
    else if collides coll position then countLineError l s
    else (emit l (showFrame rd i) s).onLine l (fun u => u.setShow rd none)
  | none => s

/-- The frame a slot's position carries (R144, R150). -/
def dueFrame (r : SlotRec) : Option SentKind :=
  match r.status with
  | .agreed => some .poll
  | .querying | .lost =>
    if !r.round then none
    else if r.tries < 3 then some .query
    else if !r.probeSent then some .probe
    else none
  | _ => none

/-- What sending, or trying to send, a frame changes in the slot record (R150). -/
def SlotRec.sending (r : SlotRec) : SentKind → SlotRec
  | .poll => r
  | .query => { r with tries := r.tries + 1 }
  | .probe => { r with probeSent := true }

/-- The positions of slots in turn, up to the first frame whose reply is awaited (R144). A collision leaves the frame
unanswered (R140). -/
def runSlots (l : Lane) (coll : Collisions) : List Slot → State → State
  | [], s => s
  | x :: rest, s =>
    match dueFrame (s.slot l x) with
    | none => runSlots l coll rest s
    | some k =>
      let s := onSlot l x (fun r => r.sending k) s
      if collides coll (slotPosition x) then runSlots l coll rest (unanswered l x k (countLineError l s))
      else (emit l (slotFrame x k) s).onLine l (fun u => { u with await := some ⟨x, k, s.time, false⟩ })

/-- A cycle starts (R144). -/
def startCycle (l : Lane) (coll : Collisions) (s : State) : State :=
  let s := s.onLine l (fun u => { u with nextCycle := s.time + Config.laneCycle, frames := [] })
  runSlots l coll [.drive, .outer, .inner]
    (sendShow l .inner 3 coll (sendShow l .outer 2 coll (sendCommand l coll s)))

/-- LANE_CYCLE (R144): once 20 ms have passed and the cycle before has ended. -/
def execLaneCycle (l : Lane) (coll : Collisions) (s : State) : Host.Outcome State Fault Refusal :=
  running s (if !(s.lane l).state.unaddressed && (s.line l).await.isNone && decide ((s.line l).nextCycle ≤ s.time) then
      startCycle l coll s
    else s)

/-- The awaited reply has been judged, or its deadline has passed: its result, then the next positions (R144). -/
def afterAwait (l : Lane) (coll : Collisions) (a : Await) (f : State → State) (s : State) : State :=
  let s := s.onLine l (fun u => { u with await := none })
  runSlots l coll (slotFollowing a.slot) (f s)

/-- NO_REPLY (R141). -/
def execNoReply (l : Lane) (coll : Collisions) (s : State) : Host.Outcome State Fault Refusal :=
  running s (match (s.line l).await with
    | some a =>
      if a.since + Config.replyDeadline ≤ s.time then afterAwait l coll a (a.unlessVoid (unanswered l a.slot a.sent)) s else s
    | none => s)

/-- BAD_REPLY (R141, R151). -/
def execBadReply (l : Lane) (r : RawReply) (coll : Collisions) (s : State) : Host.Outcome State Fault Refusal :=
  running s (match (s.line l).await with
    | some a =>
      (match judgeReply a.slot a.sent r with
       | .bad => afterAwait l coll a (takeBad l a false) s
       | .rate => afterAwait l coll a (takeBad l a true) s
       | _ => s)
    | none => s)

/-- JABBER_REPLY (R142). -/
def execJabberReply (l : Lane) (coll : Collisions) (s : State) : Host.Outcome State Fault Refusal :=
  running s (match (s.line l).await with
    | some a => afterAwait l coll a (jabberSlot l a.slot) s
    | none => s)

/-- A reply judged good is taken, when it is of the row's kind. -/
def goodReply (l : Lane) (r : RawReply) (coll : Collisions) (kind : GoodReply → Bool) (s : State) : State :=
  match (s.line l).await with
  | some a =>
    (match judgeReply a.slot a.sent r with
     | .good g => if kind g then afterAwait l coll a (a.unlessVoid (takeGood l a g)) s else s
     | _ => s)
  | none => s

/-- IDLE_REPLY (R147, R154). -/
def execIdleReply (l : Lane) (r : RawReply) (coll : Collisions) (s : State) : Host.Outcome State Fault Refusal :=
  running s (goodReply l r coll (fun g => match g with | .idle => true | _ => false) s)

/-- PRESENTATION_REPLY (R147, R154). -/
def execPresentationReply (l : Lane) (r : RawReply) (coll : Collisions) (s : State) : Host.Outcome State Fault Refusal :=
  running s (goodReply l r coll (fun g => match g with | .presentation _ _ => true | _ => false) s)

/-- SENSE_REPLY (R148, R154). -/
def execSenseReply (l : Lane) (r : RawReply) (coll : Collisions) (s : State) : Host.Outcome State Fault Refusal :=
  running s (goodReply l r coll (fun g => match g with | .sense _ _ _ => true | _ => false) s)

/-- PROFILE_REPLY (R151 to R153). -/
def execProfileReply (l : Lane) (r : RawReply) (coll : Collisions) (s : State) : Host.Outcome State Fault Refusal :=
  running s (goodReply l r coll (fun g => match g with | .leafProfile _ | .readerProfile _ _ => true | _ => false) s)

/-- STRAY (R143): while the line is neither sending nor listening, at a lane that is in service (R76). -/
def execStray (l : Lane) (s : State) : Host.Outcome State Fault Refusal :=
  running s (if !(s.lane l).state.unaddressed && (s.line l).await.isNone then countLineError l s else s)

/-! ## Retries and lockouts (R142, R155) -/

/-- The new round of a slot whose retry timer ran out (R155). -/
def SlotRec.retryRound (r : SlotRec) : SlotRec :=
  let again := { r with tries := 0, probeSent := false, round := true, retry := .stopped }
  match r.status, r.refusal with
  | .refused, some why => { again with status := .querying, refusal := none, prior := some (.refused why) }
  | .silent, _ => { again with status := .querying, prior := some .silent }
  | _, _ => again

/-- The statuses in which the retry timer runs (R139). -/
def SlotStatus.retries : SlotStatus → Bool
  | .lost | .refused | .silent => true
  | _ => false

/-- RETRY_EXPIRY (R155). -/
def execRetryExpiry (l : Lane) (x : Slot) (s : State) : Host.Outcome State Fault Refusal :=
  running s (if (s.slot l x).status.retries && (s.slot l x).retry.due s.time then onSlot l x SlotRec.retryRound s else s)

/-- LOCKOUT_EXPIRY (R142). -/
def execLockoutExpiry (l : Lane) (x : Slot) (s : State) : Host.Outcome State Fault Refusal :=
  running s (if (s.slot l x).status == .jabber && (s.slot l x).lockout.due s.time then
      onSlot l x (fun _ => .fresh) s
    else s)

/-! ## SET_LINE (R159) -/

/-- SET_LINE at the bank (R159). -/
def setLine (p : Port) (v : Option Byte) (s : State) : State :=
  match newField yesNo s.bank.qualified v with
  | none => answer p .badField [] s
  | some q => answer p .ok [yes q] { s with bank := { s.bank with qualified := q } }

/-- SET_LINE (R159). -/
def execSetLine (p : Port) (s : State) : Host.Outcome State Fault Refusal :=
  running s (match s.request p with
    | some (.setLine v) => takenByBlock p (setLine p v) s
    | _ => s)

end Sys2Proof.Machine
end

