-- ==== Sys2Proof/Machine/Clock.lean ====
section
/-!
DEFINITION. The lobby clock (09_the_lobby_clock.md): its advance, minute boundaries, sets and beacons.
-/
namespace Sys2Proof.Machine

/-- A change of the lobby clock. -/
def onClock (f : ClockUnit → ClockUnit) (s : State) : State := { s with clock := f s.clock }

/-- A CLOCK record, stamped with the clock as it stands (R163, R165, R169). -/
def clockRecord (c : ClockCode) (d : Detail) (s : State) : State :=
  handOver .clock { time := s.stamp, code := .clock c, detail := d } s

/-- The advance at the clock alone: one more second, and UNSET after the last value (R161). -/
def ClockUnit.advance (c : ClockUnit) : ClockUnit :=
  { c with secs := c.secs + 1, set := c.set && c.secs != 0xFFFFFFFF, mark := c.mark + 1000 }

/-- The advance crossed a minute boundary: a multiple of 60 with the flag SET before and after (R162). -/
def crossesMinute (former new : ClockUnit) : Bool := former.set && new.set && new.secs.toNat % 60 == 0

/-- What an advance hands on: the wrap's record and notices, and the boundary (R161, R162). -/
def handAdvance (former : ClockUnit) (s : State) : State :=
  let s := if former.secs = 0xFFFFFFFF then notifyAll .clock (clockRecord .wrapped .none s) else s
  if crossesMinute former s.clock then minuteSweep s else s

/-- CLOCK_ADVANCE, once 1,000 ms have passed (R161). In reset the clock goes on, and nothing is handed on (R168). -/
def execClockAdvance (s : State) : Host.Outcome State Fault Refusal :=
  .next (if s.clock.mark + 1000 ≤ s.time then
      let s' := onClock ClockUnit.advance s
      if s.resetHeld then s' else handAdvance s.clock s'
    else s)

/-- The clock takes a value: SET, with its place within the second restarted (R163, R165). -/
def takeTime (v : Secs) (s : State) : State := onClock (fun c => { c with secs := v, set := true, mark := s.time }) s

/-- SET_CLOCK at the clock (R163). -/
def setClock (p : Port) (v : Secs) (s : State) : State :=
  let former := s.clock
  answer p .ok (b4 former.secs ++ [flagByte former.set])
    (clockRecord .clockSet (.clock former.secs (!former.set)) (takeTime v s))

/-- SET_CLOCK (R163). -/
def execSetClock (p : Port) (s : State) : Host.Outcome State Fault Refusal :=
  running s (match s.request p with
    | some (.setClock v) => takenByBlock p (setClock p v) s
    | _ => s)

/-- SET_CLOCK_SOURCE (R164). -/
def execSetClockSource (p : Port) (s : State) : Host.Outcome State Fault Refusal :=
  running s (match s.request p with
    | some (.setClockSource b) =>
      takenByBlock p (fun t =>
        match ClockSource.ofNum b.toNat with
        | some c => answer p .ok [] (onClock (fun k => { k with source := c }) t)
        | none => answer p .badField [] t) s
    | _ => s)

/-- READ_CLOCK: the disagree counter is cleared for the SECURITY port (R166). -/
def readClock (p : Port) (s : State) : State :=
  let s' := answer p .ok (clockBody s.clock) s
  if p = .security then onClock (fun c => { c with disagree := 0 }) s' else s'

/-- READ_CLOCK (R166). -/
def execReadClock (p : Port) (s : State) : Host.Outcome State Fault Refusal :=
  running s (match s.request p with
    | some .readClock => takenByBlock p (readClock p) s
    | _ => s)

/-- The size of the gap between two values, without regard to sign (R165). -/
def gap (a b : Secs) : Nat := if a.toNat ≤ b.toNat then b.toNat - a.toNat else a.toNat - b.toNat

/-- A beacon at the clock (R165). -/
def takeBeacon (v : Secs) (s : State) : State :=
  let former := s.clock
  match former.source, former.set with
  | .securityOnly, _ => s
  | .beacon, false => clockRecord .beaconSet (.clock former.secs true) (takeTime v s)
  | .beacon, true =>
    if gap former.secs v = 0 then takeTime v s
    else if gap former.secs v ≤ Config.beaconStep then
      clockRecord .beaconStep (.clock former.secs false) (takeTime v s)
    else
      notifyAll .clock (clockRecord .beaconRejected (.clock v false)
        (onClock (fun c => { c with disagree := saturate c.disagree }) s))

/-- TIME_BEACON (R165). -/
def execTimeBeacon (s : State) : Host.Outcome State Fault Refusal :=
  running s (match s.mail.beacons with
    | v :: rest => takeBeacon v (s.onMail (fun m => { m with beacons := rest }))
    | [] => s)

end Sys2Proof.Machine
end

