-- ==== Sys2Proof/Machine/Journal.lean ====
section
/-!
DEFINITION. The journal unit and the notice units (10_the_passage_journal_and_notices.md): the ring, owed sets, losses,
subscriptions, notices, masks and the ALERT lines.
-/
namespace Sys2Proof.Machine

/-! ## The ring (R170 to R172) -/

/-- The oldest record is displaced from a full ring (R172). -/
def displaced (ring : List RingRec) : Option RingRec :=
  if ring.length ≥ Config.ringCapacity then ring.head? else none

/-- The ring with room for one more record (R172). -/
def makeRoom (ring : List RingRec) : List RingRec := if ring.length ≥ Config.ringCapacity then ring.tail else ring

/-- Each port that owed the displaced record is charged a loss (R172). -/
def chargeLoss (r : RingRec) (lost : PerPort Nat) : PerPort Nat :=
  .tabulate (fun p => if r.owed.get p then saturate (lost.get p) else lost.get p)

/-- A record joins the ring, with its owed set and after any displacement (R170, R172). -/
def JournalUnit.join (u : JournalUnit) (r : Record) : JournalUnit :=
  { u with
    ring := makeRoom u.ring ++ [⟨r, owedSet u.subs r, u.nextSeq⟩]
    lost := match displaced u.ring with | some d => chargeLoss d u.lost | none => u.lost
    nextSeq := u.nextSeq + 1 }

/-- The ports charged by a displacement (R172). -/
def charged (ring : List RingRec) : List Port :=
  match displaced ring with
  | some d => Port.all.filter (fun p => d.owed.get p)
  | none => []

/-- The journal unit takes another value, with the reports of its unread counts (R176). -/
def setJournal (u : JournalUnit) (s : State) : State :=
  ({ s with journal := u }).onMail (fun m => { m with notices := m.notices ++ pendingReports s.journal.ring u.ring })

/-- A record handed over is discarded when no port is owed it, or joins the ring (R170, R172). -/
def appendRecord (r : Record) (s : State) : State :=
  if owedAny (owedSet s.journal.subs r) then
    setJournal (s.journal.join r)
      (s.onMail (fun m => { m with notices := m.notices ++ (charged s.journal.ring).map (fun p => .latched p .loss) }))
  else s

/-- JOURNAL_APPEND (R170). -/
def execJournalAppend (src : Source) (s : State) : Host.Outcome State Fault Refusal :=
  running s (match takeFirst (fun x => x.1 == src) s.mail.records with
    | some (x, rest) => appendRecord x.2 (s.onMail (fun m => { m with records := rest }))
    | none => s)

/-! ## Reading (R173 to R175) -/

/-- The oldest records owed to a port, up to a count, in ring order (R173). -/
def oldestOwed (ring : List RingRec) (p : Port) (n : Nat) : List RingRec := (ring.filter (fun r => r.owed.get p)).take n

/-- The port leaves the owed sets of the first `n` records owed to it, and a record owed to none leaves the ring (R173). -/
def readOut (p : Port) : Nat → List RingRec → List RingRec
  | _, [] => []
  | 0, ring => ring
  | n + 1, r :: rest =>
    if r.owed.get p then
      let left := r.owed.set p false
      if owedAny left then { r with owed := left } :: readOut p n rest else readOut p n rest
    else r :: readOut p (n + 1) rest

/-- The cursor after a read: after the newest record read (R171). -/
def cursorAfter (taken : List RingRec) (former : Nat) : Nat :=
  match taken.getLast? with
  | some r => r.seq + 1
  | none => former

/-- READ_JOURNAL at the journal unit (R173). -/
def readJournal (p : Port) (b : Byte) (s : State) : State :=
  if b.toNat = 0 ∨ b.toNat > Config.recordsPerRead then answer p .badField [] s
  else
    let taken := oldestOwed s.journal.ring p b.toNat
    let ring := readOut p b.toNat s.journal.ring
    answer p .ok (journalBody (unread ring p) taken)
      (setJournal { s.journal with
        ring := ring, cursor := s.journal.cursor.set p (cursorAfter taken (s.journal.cursor.get p)) } s)

/-- READ_JOURNAL (R173). -/
def execReadJournal (p : Port) (s : State) : Host.Outcome State Fault Refusal :=
  running s (match s.request p with
    | some (.readJournal b) => takenByBlock p (readJournal p b) s
    | _ => s)

/-- SUBSCRIBE at the journal unit (R174). -/
def subscribe (p : Port) (v : BitVec 16) (s : State) : State :=
  if v.toNat > 1023 then answer p .badField [] s
  else
    answer p .ok (setBytes (s.journal.subs.get p))
      { s with journal := { s.journal with subs := s.journal.subs.set p (v.extractLsb' 0 10) } }

/-- SUBSCRIBE (R174). -/
def execSubscribe (p : Port) (s : State) : Host.Outcome State Fault Refusal :=
  running s (match s.request p with
    | some (.subscribe v) => takenByBlock p (subscribe p v) s
    | _ => s)

/-- JOURNAL_STATUS at the journal unit: the lost count is reported and cleared (R175). -/
def journalStatus (p : Port) (s : State) : State :=
  let u := s.journal
  answer p .ok (setBytes (u.subs.get p) ++ b2 (unread u.ring p) ++ b1 (u.lost.get p) ++ b2 u.ring.length)
    { s with journal := { u with lost := u.lost.set p 0 } }

/-- JOURNAL_STATUS (R175). -/
def execJournalStatus (p : Port) (s : State) : Host.Outcome State Fault Refusal :=
  running s (match s.request p with
    | some .journalStatus => takenByBlock p (journalStatus p) s
    | _ => s)

/-! ## Notices (R176 to R180) -/

/-- A change of one port's notice unit. -/
def onNotices (p : Port) (f : NoticeUnit → NoticeUnit) (s : State) : State :=
  { s with notices := s.notices.set p (f (s.notices.get p)) }

/-- A level report for a port and a notice. -/
def isLevel (p : Port) (n : Notice) : NoticeMsg → Bool
  | .level q m _ => q == p && m == n
  | .latched _ _ => false

/-- The setting of a latched notice at a port. -/
def isLatched (p : Port) (n : Notice) : NoticeMsg → Bool
  | .latched q m => q == p && m == n
  | .level _ _ _ => false

/-- The value a message gives a notice. -/
def NoticeMsg.value : NoticeMsg → Bool
  | .level _ _ v => v
  | .latched _ _ => true

/-- NOTICE_LEVEL_REPORT (R176). -/
def execNoticeLevelReport (p : Port) (n : Notice) (s : State) : Host.Outcome State Fault Refusal :=
  running s (match takeFirst (isLevel p n) s.mail.notices with
    | some (x, rest) => onNotices p (fun u => u.put n x.value) (s.onMail (fun m => { m with notices := rest }))
    | none => s)

/-- LATCHED_NOTICE_SET (R177). -/
def execLatchedNoticeSet (p : Port) (n : Notice) (s : State) : Host.Outcome State Fault Refusal :=
  running s (match takeFirst (isLatched p n) s.mail.notices with
    | some (x, rest) => onNotices p (fun u => u.put n x.value) (s.onMail (fun m => { m with notices := rest }))
    | none => s)

/-- READ_NOTICES at the notice unit: the latched notices are reported and cleared (R179). -/
def readNotices (p : Port) (s : State) : State :=
  onNotices p (fun u => NoticeUnit.settle { u with set := u.set &&& ~~~latchedBits })
    (answer p .ok (noticesBody (s.notices.get p)) s)

/-- READ_NOTICES (R179). -/
def execReadNotices (p : Port) (s : State) : Host.Outcome State Fault Refusal :=
  running s (match s.request p with
    | some .readNotices => takenByBlock p (readNotices p) s
    | _ => s)

/-- The masks after a SET_NOTICE_MASK: each given mask takes its value (R180). -/
def NoticeUnit.mask (u : NoticeUnit) (change values : BitVec 16) : NoticeUnit :=
  let c : BitVec 9 := change.extractLsb' 0 9
  let v : BitVec 9 := values.extractLsb' 0 9
  NoticeUnit.settle { u with
    masked := (u.masked &&& ~~~c) ||| (v &&& c)
    master := if change.getLsbD 9 then values.getLsbD 9 else u.master }

/-- SET_NOTICE_MASK at the notice unit: a notice the port does not have is BAD_FIELD (R180). -/
def setNoticeMask (p : Port) (change values : BitVec 16) (s : State) : State :=
  if change.getLsbD 2 && p != .dispatch then answer p .badField [] s
  else
    let s := onNotices p (fun u => u.mask change values) s
    answer p .ok (masksBody (s.notices.get p)) s

/-- SET_NOTICE_MASK (R180). -/
def execSetNoticeMask (p : Port) (s : State) : Host.Outcome State Fault Refusal :=
  running s (match s.request p with
    | some (.setNoticeMask c v) => takenByBlock p (setNoticeMask p c v) s
    | _ => s)

end Sys2Proof.Machine
end

