-- ==== Sys2Proof/Machine/Bus.lean ====
section
/-!
DEFINITION. The Foyer Bus interface and the port units (11_the_foyer_bus_ports.md): marks, bytes, requests taken and
judged, replies, holds and stalls.
-/
namespace Sys2Proof.Machine

/-! ## Shared -/

/-- A change of the bus interface. -/
def onBus (f : BusUnit → BusUnit) (s : State) : State := { s with bus := f s.bus }

/-- The port base that the straps give (R184). -/
def portBase (straps : BitVec 5) : Nat :=
  if straps.toNat < 2 then 2 else if straps.toNat > 29 then 29 else straps.toNat

/-- The port that answers at an address (R184). -/
def portAt (base addr : Nat) : Option Port :=
  if addr = 4 * base then some .security
  else if addr = 4 * base + 1 then some .reception
  else if addr = 4 * base + 2 then some .dispatch
  else none

/-- The stall limit in ms (R190). -/
def stallLimit (k : Nat) : Nat := 2 ^ k

/-- The bus is BUSY with this transaction, an edge of FCK having come now (R183, R190). -/
def busy (t : Txn) (s : State) : State := onBus (fun b => { b with seen := .busy t, lastEdge := s.time }) s

/-- The part's answer in an acknowledge slot (R183). -/
def acked (a : Ack) (s : State) : State := onBus (fun b => { b with lastAck := some a }) s

/-- A new transaction begins, under the stall limit then set (R183, R190). -/
def beginTxn (s : State) : State := busy ⟨.address, none, stallLimit s.bus.stallK⟩ s

/-- A port returns from RECEIVING to the state it came from (R186). -/
def PortUnit.goBack (u : PortUnit) : PortUnit :=
  { u with state := if u.fromReady then .replyReady else .idle, buffer := [], overlong := false }

/-- A reply enters the port's slot (R187). -/
def fillSlot (p : Port) (bytes : List Byte) (s : State) : State :=
  reportLevel p .replyReady true (s.onPort p (fun u => { u with state := .replyReady, slot := some bytes }))

/-- The slot is emptied, with its report when it held a reply (R176, R186, R188). -/
def emptySlot (p : Port) (s : State) : State :=
  let s' := s.onPort p (fun u => { u with slot := none })
  if (s.port p).slot.isSome then reportLevel p .replyReady false s' else s'

/-- A request is taken at the end of a write: the old reply goes, and the port unit judges the bytes (R186, R187). That it
judges them in the taking event, so that a refused request's reply stands in the slot before the next address byte and a
read of it is not held, is the model's choice (log entry 48). -/
def requestTaken (p : Port) (s : State) : State :=
  let u := s.port p
  let s := (emptySlot p s).onPort p (fun u => { u with state := .inProgress, buffer := [], overlong := false })
  match judgeRequest p u.overlong u.buffer with
  | .refused st => fillSlot p (replyBytes st []) s
  | .handedOn q => s.onPort p (fun u => { u with handed := some q })

/-- The bytes of a broadcast write go to the clock if they form a beacon (R185). -/
def endBroadcast (bytes : List Byte) (tooLong : Bool) (s : State) : State :=
  match tooLong, parseBeacon bytes with
  | false, some v => s.onMail (fun m => { m with beacons := m.beacons ++ [v] })
  | _, _ => s

/-- The current transaction ends (R183, R185, R186). -/
def endTxn (t : Txn) (s : State) : State :=
  match t.phase with
  | .write p => if (s.port p).buffer = [] then s.onPort p PortUnit.goBack else requestTaken p s
  | .broadcast bytes tooLong => endBroadcast bytes tooLong s
  | _ => s

/-! ## Marks (R183) -/

/-- A BANK_RESET that has passed its checks stands handed on, and its reset is still to come (R191). -/
def resetWaits (s : State) : Bool := Port.all.any (fun p => s.request p == some .bankReset)

/-- A start mark seen in IDLE begins a transaction, but not between a BANK_RESET and its reset: what follows the request is
not answered (R183, R191, log entry 41). -/
def takeStart (s : State) : State := if s.bus.seen = .idle ∧ resetWaits s = false then beginTxn s else s

/-- A stop mark ends the transaction, and the bus is IDLE (R183). -/
def stopTxn (t : Txn) (s : State) : State := onBus (fun b => { b with seen := .idle }) (endTxn t s)

/-- START_MARK: taken in IDLE; in IGNORING it is not taken (R183). -/
def execStartMark (s : State) : Host.Outcome State Fault Refusal := running s (takeStart s)

/-- REPEATED_START: ends the current transaction as a stop mark would, and begins another (R183). -/
def execRepeatedStart (s : State) : Host.Outcome State Fault Refusal :=
  running s (match s.bus.seen with
    | .busy t => takeStart (stopTxn t s)
    | _ => s)

/-- STOP_MARK: ends the current transaction, and leaves IGNORING (R183, R186). -/
def execStopMark (s : State) : Host.Outcome State Fault Refusal :=
  running s (match s.bus.seen with
    | .busy t => stopTxn t s
    | _ => onBus (fun b => { b with seen := .idle }) s)

/-! ## Bytes (R185, R186, R188) -/

/-- A write is addressed to a port (R185, R186). -/
def addressWrite (p : Port) (t : Txn) (s : State) : State :=
  match (s.port p).state with
  | .idle | .replyReady =>
    acked .acknowledged (busy { t with phase := .write p, addressed := some p }
      (s.onPort p (fun u =>
        { u with state := .receiving, fromReady := u.state == .replyReady, buffer := [], overlong := false })))
  | .receiving | .inProgress => acked .refused (busy { t with phase := .aside, addressed := some p } s)

/-- What a read of a port sends (R188, R189). -/
def readPhase (p : Port) (now : Nat) : PortState → TxnPhase
  | .replyReady => .read p .slot 0
  | .inProgress => .held p now
  | .idle | .receiving => .read p (.fixed (replyBytes .noReply [])) 0

/-- A read is addressed to a port (R185). -/
def addressRead (p : Port) (t : Txn) (s : State) : State :=
  acked .acknowledged (busy { t with phase := readPhase p s.time (s.port p).state, addressed := some p } s)

/-- The address byte of a transaction: seven bits of address and the direction (R183, R185). -/
def addressed (b : Byte) (t : Txn) (s : State) : State :=
  match portAt s.bus.base (b.toNat / 2), b.getLsbD 0 with
  | some p, false => addressWrite p t s
  | some p, true => addressRead p t s
  | none, read =>
    if b.toNat / 2 = 0 then
      if read then acked .refused (busy { t with phase := .aside } s)
      else acked .acknowledged (busy { t with phase := .broadcast [] false } s)
    else acked .unanswered (busy { t with phase := .aside } s)

/-- ADDRESS_BYTE (R185). -/
def execAddressByte (b : Byte) (s : State) : Host.Outcome State Fault Refusal :=
  running s (match s.bus.seen with
    | .busy t => if t.phase = .address then addressed b t s else s
    | _ => s)

/-- A data byte of a write or a broadcast write: kept up to the fortieth, then refused; in a transaction the part takes no
part in, the edges alone are seen (R185, R186, R190). -/
def dataByte (b : Byte) (t : Txn) (s : State) : State :=
  match t.phase with
  | .write p =>
    if (s.port p).buffer.length < Config.requestBytes then
      acked .acknowledged (busy t (s.onPort p (fun u => { u with buffer := u.buffer ++ [b] })))
    else acked .refused (busy t (s.onPort p (fun u => { u with overlong := true })))
  | .broadcast bytes tooLong =>
    if bytes.length < Config.requestBytes then acked .acknowledged (busy { t with phase := .broadcast (bytes ++ [b]) tooLong } s)
    else acked .refused (busy { t with phase := .broadcast bytes true } s)
  | .aside => acked .unanswered (busy t s)
  | _ => s

/-- REQUEST_DATA_BYTE (R186). -/
def execRequestDataByte (b : Byte) (s : State) : Host.Outcome State Fault Refusal :=
  running s (match s.bus.seen with
    | .busy t => dataByte b t s
    | _ => s)

/-- What a read is sending. -/
def readBytes (s : State) (p : Port) : ReadSource → List Byte
  | .slot => (s.port p).slot.getD []
  | .fixed bytes => bytes

/-- The reply is fully read: the slot is emptied, the port is IDLE, and what is clocked from now on is filler (R188). -/
def fullyRead (p : Port) (t : Txn) (s : State) : State :=
  busy { t with phase := .read p (.fixed []) 0 } ((emptySlot p s).onPort p (fun u => { u with state := .idle }))

/-- A byte is sent to the master: the next of the reply, or filler (R188). -/
def sendByte (p : Port) (src : ReadSource) (n : Nat) (t : Txn) (s : State) : State :=
  let bytes := readBytes s p src
  let s := onBus (fun b => { b with lastByte := some ((bytes[n]?).getD 0xFF) }) s
  if src = .slot ∧ n + 1 = bytes.length then fullyRead p t s
  else busy { t with phase := .read p src (n + 1) } s

/-- REPLY_BYTE_SENT: the part sends a byte, whether or not the master acknowledges it (R188). -/
def execReplyByteSent (_ack : Bool) (s : State) : Host.Outcome State Fault Refusal :=
  running s (match s.bus.seen with
    | .busy t =>
      (match t.phase with
       | .read p src n => sendByte p src n t s
       | .aside => busy t s
       | _ => s)
    | _ => s)

/-! ## Replies and holds (R187, R189) -/

/-- A read that is held for the port goes on (R189). -/
def releaseHold (p : Port) (src : ReadSource) (s : State) : State :=
  match s.bus.seen with
  | .busy t =>
    (match t.phase with
     | .held q _ => if q = p then busy { t with phase := .read p src 0 } s else s
     | _ => s)
  | _ => s

/-- REPLY_TO_SLOT (R187, R189). -/
def execReplyToSlot (p : Port) (s : State) : Host.Outcome State Fault Refusal :=
  running s (match s.mail.replies.get p with
    | some bytes =>
      releaseHold p .slot (fillSlot p bytes (s.onMail (fun m => { m with replies := m.replies.set p none })))
    | none => s)

/-- HOLD_LIMIT_EXPIRY (R189). -/
def execHoldLimitExpiry (s : State) : Host.Outcome State Fault Refusal :=
  running s (match s.bus.seen with
    | .busy t =>
      (match t.phase with
       | .held p since =>
         if since + Config.holdLimit ≤ s.time then releaseHold p (.fixed (replyBytes .notReady [])) s else s
       | _ => s)
    | _ => s)

/-! ## Stalls (R190) -/

/-- The part itself holds FCK (R189, R190). -/
def TxnPhase.held? : TxnPhase → Bool
  | .held _ _ => true
  | _ => false

/-- The transaction is abandoned (R190). -/
def abandon (t : Txn) (s : State) : State :=
  let s := match t.phase with
    | .write p => s.onPort p PortUnit.goBack
    | _ => s
  let s := match t.addressed with
    | some p => notify p .stall s
    | none => s
  onBus (fun b => { b with seen := .ignoring }) s

/-- The time since an edge has not exceeded the transaction's stall limit (R190). -/
def withinLimit (s : State) (t : Txn) (edge : Nat) : Bool := decide (edge ≤ s.time) && decide (s.time ≤ edge + t.limit)

/-- The time since the last edge exceeds the stall limit, the edges inside a byte counted (R190, log entry 40). -/
def stalled (s : State) (t : Txn) : Bool :=
  decide (s.bus.lastEdge + t.limit < s.time) && !s.pins.edges.any (withinLimit s t)

/-- STALL_LIMIT_EXPIRY: the bus has stalled while the part does not hold FCK (R190). -/
def execStallLimitExpiry (s : State) : Host.Outcome State Fault Refusal :=
  running s (match s.bus.seen with
    | .busy t => if !t.phase.held? && stalled s t then abandon t s else s
    | _ => s)

/-- SET_BUS (R190). -/
def execSetBus (p : Port) (s : State) : Host.Outcome State Fault Refusal :=
  running s (match s.request p with
    | some (.setBus k) =>
      takenByBlock p (fun t =>
        if 3 ≤ k.toNat ∧ k.toNat ≤ 7 then answer p .ok [] (onBus (fun b => { b with stallK := k.toNat }) t)
        else answer p .badField [] t) s
    | _ => s)

end Sys2Proof.Machine
end

