-- ==== Sys2Proof/Machine/Reset.lean ====
section
/-!
DEFINITION. Power-on, the warm reset and the leaving of it, and BANK_RESET: each unit takes the values its own chapter
gives it (R25 to R27, R44, R80, R81, R97, R110, R123, R124, R138, R160, R168, R181, R182, R191, R192).
-/
namespace Sys2Proof.Machine

/-- The straps are read (R184). -/
def readStraps (straps : BitVec 5) (s : State) : State :=
  onBus (fun b => { b with base := portBase straps }) { s with pins := { s.pins with straps := straps } }

/-- POWER_ON: every block takes its power-on values, the straps are read, and a high EGRESS_REQ starts the debounce
(R25, R138). -/
def execPowerOn (straps : BitVec 5) (high : Bool) (s : State) : Host.Outcome State Fault Refusal :=
  .next (compareInput (readStraps straps { State.reset with pending := s.pending, pins := { s.pins with straps := straps, egressReq := high } }))

/-- The table after a warm reset: claims cleared, no walk, nothing departed (R26, R27). -/
def TableUnit.warm (t : TableUnit) : TableUnit :=
  { t with
    entries := t.entries.map (fun e => { e with claim := none, inRemoval := false })
    departed := [], walk := none, waiting := none }

/-- A lane after a warm reset: the settings are kept (R81); the first pace test reads the active action (R124). -/
def LaneUnit.warm (masked : Bool) (a : ActiveAction) (u : LaneUnit) : LaneUnit :=
  { LaneUnit.reset with state := if masked then .masked else .enumerating, settings := u.settings, action := a }

/-- A lane line after a warm reset (R160). -/
def LineUnit.warm (masked : Bool) : LineUnit :=
  LineUnit.mapSlots (fun _ => if masked then .off else .fresh) LineUnit.reset

/-- A function of the lane, as a value for each lane. -/
def PerLane.tabulate {α : Type} (f : Lane → α) : PerLane α := ⟨f .l0, f .l1, f .l2, f .l3, f .l4, f .l5, f .l6, f .l7⟩

/-- The occupancy unit after a warm reset: every group is evaluated once (R124). -/
def OccupancyUnit.warm (o : OccupancyUnit) : OccupancyUnit := { o with groups := o.groups.map (Group.evaluate o.counts) }

/-- A notice unit after a warm reset: masks kept, everything clear (R182). -/
def NoticeUnit.warm (u : NoticeUnit) : NoticeUnit := NoticeUnit.settle { u with set := 0 }

/-- What a low level on RESET_N leaves (R81). Messages between the blocks are lost, a passage on its way to the occupancy or
the escort unit among them: no rule says what becomes of them (R124, log entry 37). -/
def enterReset (s : State) : State :=
  let o := s.occupancy.warm
  { s with
    resetHeld := true
    table := s.table.warm
    arbiter := .reset
    lanes := .tabulate (fun l => LaneUnit.warm (hasLane s.bank.mask l) o.activeAction (s.lane l))
    lines := .tabulate (fun l => LineUnit.warm (hasLane s.bank.mask l))
    escort := { s.escort with list := [] }
    dispatch := { s.dispatch with queue := [], loss := 0 }
    occupancy := o
    safety := { s.safety with debounceDue := none, claimStands := false }
    journal := { JournalUnit.reset with subs := s.journal.subs }
    notices := s.notices.map NoticeUnit.warm
    ports := .fill .reset
    bus := { BusUnit.reset with base := s.bus.base, stallK := s.bus.stallK }
    mail := .reset }

/-- WARM_RESET (R81). -/
def execWarmReset (s : State) : Host.Outcome State Fault Refusal := .next (enterReset s)

/-- The end of a warm reset at the bank safety unit: an overtake becomes EGRESS with its hand-ons and its waiting release,
a restore is tested for its end (R138). -/
def resumeSafety (s : State) : State :=
  if s.safety.overtake then takeWaitingRelease (becomeEgress s) else testRestoreEnd s

/-- What the part does as it leaves a warm reset: the straps are read, the cycles start, and the egress input is compared
afresh (R138, R160, R184). -/
def leaveReset (straps : BitVec 5) (s : State) : State :=
  let s := readStraps straps { s with resetHeld := false, lines := s.lines.map (fun u => { u with nextCycle := s.time }) }
  compareInput (resumeSafety s)

/-- LEAVE_WARM_RESET (R138). -/
def execLeaveWarmReset (straps : BitVec 5) (s : State) : Host.Outcome State Fault Refusal :=
  .next (if s.resetHeld then leaveReset straps s else s)

/-- BANK_RESET: a warm reset, left in the same step, with no reply (R191). -/
def execBankReset (p : Port) (straps : BitVec 5) (s : State) : Host.Outcome State Fault Refusal :=
  running s (match s.request p with
    | some .bankReset => leaveReset straps (enterReset s)
    | _ => s)

end Sys2Proof.Machine
end

