-- ==== Sys2Proof/Machine/Dispatch.lean ====
section
/-!
DEFINITION. The dispatch: one arm for each command, each a direct call of the command's meaning.
-/
namespace Sys2Proof.Machine

def exec (i : Instr) (s : State) : Host.Outcome State Fault Refusal :=
  match i with
  | .powerOn straps high => Sys2Proof.Machine.execPowerOn straps high s
  | .warmReset => Sys2Proof.Machine.execWarmReset s
  | .startMark => Sys2Proof.Machine.execStartMark s
  | .repeatedStart => Sys2Proof.Machine.execRepeatedStart s
  | .stopMark => Sys2Proof.Machine.execStopMark s
  | .addressByte b => Sys2Proof.Machine.execAddressByte b s
  | .requestDataByte b => Sys2Proof.Machine.execRequestDataByte b s
  | .replyByteSent ack => Sys2Proof.Machine.execReplyByteSent ack s
  | .replyToSlot p => Sys2Proof.Machine.execReplyToSlot p s
  | .holdLimitExpiry => Sys2Proof.Machine.execHoldLimitExpiry s
  | .stallLimitExpiry => Sys2Proof.Machine.execStallLimitExpiry s
  | .timeBeacon => Sys2Proof.Machine.execTimeBeacon s
  | .insertEntry p => Sys2Proof.Machine.execInsertEntry p s
  | .modifyEntry p => Sys2Proof.Machine.execModifyEntry p s
  | .revokeEntry p => Sys2Proof.Machine.execRevokeEntry p s
  | .queryEntry p => Sys2Proof.Machine.execQueryEntry p s
  | .setSide p => Sys2Proof.Machine.execSetSide p s
  | .purge p => Sys2Proof.Machine.execPurge p s
  | .setQuota p => Sys2Proof.Machine.execSetQuota p s
  | .tableStatus p => Sys2Proof.Machine.execTableStatus p s
  | .deskPass p => Sys2Proof.Machine.execDeskPass p s
  | .setLane p => Sys2Proof.Machine.execSetLane p s
  | .setBankMode p => Sys2Proof.Machine.execSetBankMode p s
  | .setLaneMask p => Sys2Proof.Machine.execSetLaneMask p s
  | .isolateLane p => Sys2Proof.Machine.execIsolateLane p s
  | .resumeLane p => Sys2Proof.Machine.execResumeLane p s
  | .restartLane p => Sys2Proof.Machine.execRestartLane p s
  | .alarmReset p => Sys2Proof.Machine.execAlarmReset p s
  | .readLaneCounters p => Sys2Proof.Machine.execReadLaneCounters p s
  | .laneStatus p => Sys2Proof.Machine.execLaneStatus p s
  | .setEscort p => Sys2Proof.Machine.execSetEscort p s
  | .escortStatus p => Sys2Proof.Machine.execEscortStatus p s
  | .takeCalls p => Sys2Proof.Machine.execTakeCalls p s
  | .assign p => Sys2Proof.Machine.execAssign p s
  | .decline p => Sys2Proof.Machine.execDecline p s
  | .setDispatch p => Sys2Proof.Machine.execSetDispatch p s
  | .dispatchStatus p => Sys2Proof.Machine.execDispatchStatus p s
  | .setCounts p => Sys2Proof.Machine.execSetCounts p s
  | .counts p => Sys2Proof.Machine.execCounts p s
  | .setGovernor p => Sys2Proof.Machine.execSetGovernor p s
  | .governorStatus p => Sys2Proof.Machine.execGovernorStatus p s
  | .restore p => Sys2Proof.Machine.execRestore p s
  | .setEgress p => Sys2Proof.Machine.execSetEgress p s
  | .lockdown p => Sys2Proof.Machine.execLockdown p s
  | .safetyStatus p => Sys2Proof.Machine.execSafetyStatus p s
  | .setLine p => Sys2Proof.Machine.execSetLine p s
  | .setClock p => Sys2Proof.Machine.execSetClock p s
  | .setClockSource p => Sys2Proof.Machine.execSetClockSource p s
  | .readClock p => Sys2Proof.Machine.execReadClock p s
  | .readJournal p => Sys2Proof.Machine.execReadJournal p s
  | .subscribe p => Sys2Proof.Machine.execSubscribe p s
  | .journalStatus p => Sys2Proof.Machine.execJournalStatus p s
  | .readNotices p => Sys2Proof.Machine.execReadNotices p s
  | .setNoticeMask p => Sys2Proof.Machine.execSetNoticeMask p s
  | .setBus p => Sys2Proof.Machine.execSetBus p s
  | .bankReset p straps => Sys2Proof.Machine.execBankReset p straps s
  | .egressReqChange high => Sys2Proof.Machine.execEgressReqChange high s
  | .egressDebounceExpiry => Sys2Proof.Machine.execEgressDebounceExpiry s
  | .overtakeOrder l => Sys2Proof.Machine.execOvertakeOrder l s
  | .laneStateReport l => Sys2Proof.Machine.execLaneStateReport l s
  | .amnesty => Sys2Proof.Machine.execAmnesty s
  | .amnestyDone => Sys2Proof.Machine.execAmnestyDone s
  | .freeRestoreClearExpiry l => Sys2Proof.Machine.execFreeRestoreClearExpiry l s
  | .lockdownOrder l => Sys2Proof.Machine.execLockdownOrder l s
  | .escortLockdown => Sys2Proof.Machine.execEscortLockdown s
  | .escortEgressClear => Sys2Proof.Machine.execEscortEgressClear s
  | .clockAdvance => Sys2Proof.Machine.execClockAdvance s
  | .sweepStep c => Sys2Proof.Machine.execSweepStep c s
  | .forcedRevokeStart => Sys2Proof.Machine.execForcedRevokeStart s
  | .forcedRevokeStep c => Sys2Proof.Machine.execForcedRevokeStep c s
  | .forcedRevokeEnd => Sys2Proof.Machine.execForcedRevokeEnd s
  | .purgeFirstPassStep c => Sys2Proof.Machine.execPurgeFirstPassStep c s
  | .purgeSecondPassStep c => Sys2Proof.Machine.execPurgeSecondPassStep c s
  | .purgeFinalStep => Sys2Proof.Machine.execPurgeFinalStep s
  | .laneCycle l coll => Sys2Proof.Machine.execLaneCycle l coll s
  | .noReply l coll => Sys2Proof.Machine.execNoReply l coll s
  | .badReply l r coll => Sys2Proof.Machine.execBadReply l r coll s
  | .jabberReply l coll => Sys2Proof.Machine.execJabberReply l coll s
  | .stray l => Sys2Proof.Machine.execStray l s
  | .idleReply l r coll => Sys2Proof.Machine.execIdleReply l r coll s
  | .presentationReply l r coll => Sys2Proof.Machine.execPresentationReply l r coll s
  | .senseReply l r coll => Sys2Proof.Machine.execSenseReply l r coll s
  | .profileReply l r coll => Sys2Proof.Machine.execProfileReply l r coll s
  | .retryExpiry l x => Sys2Proof.Machine.execRetryExpiry l x s
  | .lockoutExpiry l x => Sys2Proof.Machine.execLockoutExpiry l x s
  | .crossIn l => Sys2Proof.Machine.execCrossIn l s
  | .crossLeaf l => Sys2Proof.Machine.execCrossLeaf l s
  | .crossOut l => Sys2Proof.Machine.execCrossOut l s
  | .retreat l => Sys2Proof.Machine.execRetreat l s
  | .pair l => Sys2Proof.Machine.execPair l s
  | .obstructOn l => Sys2Proof.Machine.execObstructOn l s
  | .obstructOff l => Sys2Proof.Machine.execObstructOff l s
  | .senseStateUpdate l => Sys2Proof.Machine.execSenseStateUpdate l s
  | .openTimerExpiry t => Sys2Proof.Machine.execOpenTimerExpiry t s
  | .transitTimerExpiry t => Sys2Proof.Machine.execTransitTimerExpiry t s
  | .obstructionTimerExpiry l => Sys2Proof.Machine.execObstructionTimerExpiry l s
  | .clearTimerExpiry l => Sys2Proof.Machine.execClearTimerExpiry l s
  | .paceIntervalExpiry l => Sys2Proof.Machine.execPaceIntervalExpiry l s
  | .displayHoldExpiry l rd => Sys2Proof.Machine.execDisplayHoldExpiry l rd s
  | .reservationHoldExpiry l => Sys2Proof.Machine.execReservationHoldExpiry l s
  | .presentationLookup => Sys2Proof.Machine.execPresentationLookup s
  | .deskPassLookup p => Sys2Proof.Machine.execDeskPassLookup p s
  | .escortRelease => Sys2Proof.Machine.execEscortRelease s
  | .escortClaimRelease => Sys2Proof.Machine.execEscortClaimRelease s
  | .passagePosting => Sys2Proof.Machine.execPassagePosting s
  | .windowRemoval l => Sys2Proof.Machine.execWindowRemoval l s
  | .windowWithdrawal l => Sys2Proof.Machine.execWindowWithdrawal l s
  | .occupancyPassage l => Sys2Proof.Machine.execOccupancyPassage l s
  | .sponsorPassage l => Sys2Proof.Machine.execSponsorPassage l s
  | .laneReleaseNotice l => Sys2Proof.Machine.execLaneReleaseNotice l s
  | .escortWaitExpiry c => Sys2Proof.Machine.execEscortWaitExpiry c s
  | .creditExpiry c => Sys2Proof.Machine.execCreditExpiry c s
  | .escortEndMessage => Sys2Proof.Machine.execEscortEndMessage s
  | .callTimerExpiry t => Sys2Proof.Machine.execCallTimerExpiry t s
  | .dispatchIndication l => Sys2Proof.Machine.execDispatchIndication l s
  | .holdForCarReport l => Sys2Proof.Machine.execHoldForCarReport l s
  | .activeActionUpdate l => Sys2Proof.Machine.execActiveActionUpdate l s
  | .journalAppend src => Sys2Proof.Machine.execJournalAppend src s
  | .noticeLevelReport p n => Sys2Proof.Machine.execNoticeLevelReport p n s
  | .latchedNoticeSet p n => Sys2Proof.Machine.execLatchedNoticeSet p n s
  | .leaveWarmReset straps => Sys2Proof.Machine.execLeaveWarmReset straps s

end Sys2Proof.Machine
end

