-- ==== Sys2Proof/Machine/Step.lean ====
section
/-!
DEFINITION. One step: the command at the front of the queue, or, with none waiting, a millisecond of the time base.
-/
namespace Sys2Proof.Machine

/-- With no command waiting the time base goes on by 1 ms (log entry 3). -/
def tick (s : State) : State := { s with time := s.time + 1 }

/-- A step takes the command at the front of the queue; its outcome is that of `exec` on the state with the queue's rest. -/
def step (s : State) : Host.Outcome State Fault Refusal :=
  match s.pending with
  | [] => .next (tick s)
  | c :: rest => exec c { s with pending := rest }

/-- The state with the command a word spells put at the front of its queue; no word spells one. -/
def State.withFetchWord (s : State) (nbits w : Nat) : State :=
  match decodeTableWord nbits w with
  | some c => { s with pending := c :: s.pending }
  | none => s

end Sys2Proof.Machine
end

