-- ==== Sys2Proof/WellFormed.lean ====
section
/-!
DEFINITION. Which commands can be given at all: a request row's port has the right to the request (R187), a walk or
escort row names a number that is a credential (R1), and a notice row names a notice of its kind that the port has (R176).
-/
namespace Sys2Proof

open Machine

/-- The request a request row stands for, with the port it names. -/
def Instr.requestRow : Instr → Option (RequestName × Port)
  | .insertEntry p => some (.insertEntry, p) | .modifyEntry p => some (.modifyEntry, p)
  | .revokeEntry p => some (.revokeEntry, p) | .queryEntry p => some (.queryEntry, p)
  | .setSide p => some (.setSide, p) | .purge p => some (.purge, p)
  | .setQuota p => some (.setQuota, p) | .tableStatus p => some (.tableStatus, p)
  | .deskPass p => some (.deskPass, p) | .setLane p => some (.setLane, p)
  | .setBankMode p => some (.setBankMode, p) | .setLaneMask p => some (.setLaneMask, p)
  | .isolateLane p => some (.isolateLane, p) | .resumeLane p => some (.resumeLane, p)
  | .restartLane p => some (.restartLane, p) | .alarmReset p => some (.alarmReset, p)
  | .readLaneCounters p => some (.readLaneCounters, p) | .laneStatus p => some (.laneStatus, p)
  | .setEscort p => some (.setEscort, p) | .escortStatus p => some (.escortStatus, p)
  | .takeCalls p => some (.takeCalls, p) | .assign p => some (.assign, p)
  | .decline p => some (.decline, p) | .setDispatch p => some (.setDispatch, p)
  | .dispatchStatus p => some (.dispatchStatus, p) | .setCounts p => some (.setCounts, p)
  | .counts p => some (.counts, p) | .setGovernor p => some (.setGovernor, p)
  | .governorStatus p => some (.governorStatus, p) | .restore p => some (.restore, p)
  | .setEgress p => some (.setEgress, p) | .lockdown p => some (.lockdown, p)
  | .safetyStatus p => some (.safetyStatus, p) | .setLine p => some (.setLine, p)
  | .setClock p => some (.setClock, p) | .setClockSource p => some (.setClockSource, p)
  | .readClock p => some (.readClock, p) | .readJournal p => some (.readJournal, p)
  | .subscribe p => some (.subscribe, p) | .journalStatus p => some (.journalStatus, p)
  | .readNotices p => some (.readNotices, p) | .setNoticeMask p => some (.setNoticeMask, p)
  | .setBus p => some (.setBus, p) | .bankReset p _ => some (.bankReset, p)
  | _ => none

/-- A command that can be given. -/
def Instr.wf (i : Instr) : Bool :=
  match i with
  | .sweepStep c | .forcedRevokeStep c | .purgeFirstPassStep c | .purgeSecondPassStep c | .escortWaitExpiry c
  | .creditExpiry c => Cred.valid c
  | .noticeLevelReport p n => !Notice.latched n && Notice.isAt n p
  | .latchedNoticeSet _ n => Notice.latched n
  | .deskPassLookup p => hasRight .deskPass p
  | _ =>
    match i.requestRow with
    | some (n, p) => hasRight n p
    | none => true

end Sys2Proof
end

