-- ==== Sys2Proof/Safety.lean ====
section
/-!
DEFINITION. What statements about the part are made of: the blocks of the state and what a command may touch, the
conditions under which a request is taken, and the invariants of the manual's collections.
-/
namespace Sys2Proof.Machine

/-! ## The blocks of the state -/

/-- The pieces of the state that a frame speaks of: the blocks of 00_scope.md, and each kind of message between them. -/
inductive Block where
  | pending | time | resetHeld | pins | bank | table | arbiter
  | lane (l : Lane) | line (l : Lane)
  | escort | dispatch | occupancy | safety | clock | journal
  | notices (p : Port) | port (p : Port) | bus
  | records | noticeMail | replies (p : Port) | reports | overtakes | lockdowns | withdrawals | releases | indications
  | holds | actions | results | sense | passages | sponsors | escortEnds | escortLockdowns | escortClears | beacons
  | amnestyDone
deriving DecidableEq, Repr

/-- A block is the same in two states. -/
def Block.same (b : Block) (s t : State) : Prop :=
  match b with
  | .pending => t.pending = s.pending | .time => t.time = s.time | .resetHeld => t.resetHeld = s.resetHeld
  | .pins => t.pins = s.pins | .bank => t.bank = s.bank | .table => t.table = s.table | .arbiter => t.arbiter = s.arbiter
  | .lane l => t.lane l = s.lane l | .line l => t.line l = s.line l
  | .escort => t.escort = s.escort | .dispatch => t.dispatch = s.dispatch | .occupancy => t.occupancy = s.occupancy
  | .safety => t.safety = s.safety | .clock => t.clock = s.clock | .journal => t.journal = s.journal
  | .notices p => t.notices.get p = s.notices.get p | .port p => t.port p = s.port p | .bus => t.bus = s.bus
  | .records => t.mail.records = s.mail.records | .noticeMail => t.mail.notices = s.mail.notices
  | .replies p => t.mail.replies.get p = s.mail.replies.get p | .reports => t.mail.reports = s.mail.reports
  | .overtakes => t.mail.overtakes = s.mail.overtakes | .lockdowns => t.mail.lockdowns = s.mail.lockdowns
  | .withdrawals => t.mail.withdrawals = s.mail.withdrawals | .releases => t.mail.releases = s.mail.releases
  | .indications => t.mail.indications = s.mail.indications | .holds => t.mail.holds = s.mail.holds
  | .actions => t.mail.actions = s.mail.actions | .results => t.mail.results = s.mail.results
  | .sense => t.mail.sense = s.mail.sense | .passages => t.mail.passages = s.mail.passages
  | .sponsors => t.mail.sponsors = s.mail.sponsors | .escortEnds => t.mail.escortEnds = s.mail.escortEnds
  | .escortLockdowns => t.mail.escortLockdowns = s.mail.escortLockdowns
  | .escortClears => t.mail.escortClears = s.mail.escortClears | .beacons => t.mail.beacons = s.mail.beacons
  | .amnestyDone => t.mail.amnestyDone = s.mail.amnestyDone

/-- Nothing but the listed blocks differs from `s` to `t`. -/
def KeepsAllBut (bs : List Block) (s t : State) : Prop := ∀ b, b ∉ bs → b.same s t

/-! ## What each command may touch -/

/-- Every lane sequencer with its lane line. -/
def everyLane : List Block := Lane.all.map Block.lane ++ Lane.all.map Block.line
/-- Every port unit. -/
def everyPort : List Block := Port.all.map Block.port
/-- The reply of any port. -/
def anyReply : List Block := Port.all.map Block.replies
/-- Every block but the queue of commands and the time base: what the resets reach. -/
def everyBlock : List Block :=
  [.resetHeld, .pins, .bank, .table, .arbiter] ++ everyLane
    ++ [.escort, .dispatch, .occupancy, .safety, .clock, .journal] ++ Port.all.map Block.notices ++ everyPort ++ [.bus]
    ++ [.records, .noticeMail] ++ anyReply
    ++ [.reports, .overtakes, .lockdowns, .withdrawals, .releases, .indications, .holds, .actions, .results, .sense,
      .passages, .sponsors, .escortEnds, .escortLockdowns, .escortClears, .beacons, .amnestyDone]

/-- A request taken from its port, with its reply made. -/
def answered (p : Port) : List Block := [.port p, .replies p]
/-- What a change of lane state out of service touches beside the lane: its records, its report, a reservation's reply. -/
def stateChange : List Block := [.records, .noticeMail, .reports] ++ anyReply
/-- A lane event that ends windows or raises an alarm. -/
def laneEnding (l : Lane) : List Block := [.lane l, .line l, .arbiter] ++ stateChange
/-- A lane that comes back to READY and offers its places. -/
def laneReturn (l : Lane) : List Block := [.lane l, .line l, .arbiter, .escort, .records, .noticeMail, .reports]
/-- A lookup or a release at the table, which may create a window. -/
def creation : List Block :=
  [.arbiter, .table, .escort, .dispatch, .records, .noticeMail, .reports, .indications] ++ everyLane

/-- The blocks a command may touch: what each rule of the manual writes, and the messages it sends. -/
def footprint : Instr → List Block
  | .powerOn _ _ => .time :: everyBlock
  | .warmReset | .leaveWarmReset _ | .bankReset _ _ => everyBlock
  | .startMark | .holdLimitExpiry => [.bus]
  | .repeatedStart | .stopMark => [.bus, .noticeMail, .beacons] ++ everyPort
  | .addressByte _ | .requestDataByte _ => .bus :: everyPort
  | .replyByteSent _ | .stallLimitExpiry => [.bus, .noticeMail] ++ everyPort
  | .replyToSlot p => [.bus, .noticeMail] ++ answered p
  | .timeBeacon => [.clock, .beacons, .records, .noticeMail]
  | .queryEntry p | .tableStatus p => .arbiter :: answered p
  | .insertEntry p | .setSide p | .purge p | .setQuota p => [.arbiter, .table] ++ answered p
  | .modifyEntry p => [.arbiter, .table, .escortEnds, .withdrawals] ++ answered p
  | .revokeEntry p => [.arbiter, .table, .escortEnds, .withdrawals, .records] ++ answered p
  | .deskPass p => [.arbiter, .records] ++ answered p ++ Lane.all.map Block.lane
  | .setLane p => [.port p, .arbiter, .escort] ++ stateChange ++ everyLane
  | .setBankMode p => [.port p, .bank, .arbiter, .escort, .records] ++ anyReply ++ everyLane
  | .setLaneMask p => [.port p, .bank, .arbiter] ++ stateChange ++ everyLane
  | .isolateLane p | .resumeLane p | .restartLane p => [.port p, .arbiter] ++ stateChange ++ everyLane
  | .alarmReset p => [.port p, .arbiter, .escort] ++ stateChange ++ everyLane
  | .readLaneCounters p => answered p ++ Lane.all.map Block.lane
  | .laneStatus p | .escortStatus p | .counts p | .governorStatus p | .safetyStatus p => answered p
  | .setEscort p => [.escort, .arbiter, .records] ++ answered p ++ everyLane
  | .takeCalls p => [.dispatch, .noticeMail] ++ answered p ++ everyLane
  | .assign p | .decline p => [.records, .indications] ++ answered p ++ everyLane
  | .setDispatch p => [.dispatch, .holds] ++ answered p
  | .dispatchStatus p => .dispatch :: answered p
  | .setCounts p | .setGovernor p => [.occupancy, .records, .noticeMail, .actions] ++ answered p
  | .restore p => [.safety, .arbiter] ++ answered p ++ everyLane
  | .setEgress p => .safety :: answered p
  | .lockdown p => [.safety, .records, .noticeMail, .lockdowns, .escortLockdowns] ++ answered p
  | .setLine p => .bank :: answered p
  | .setClock p => [.clock, .records] ++ answered p
  | .setClockSource p | .readClock p => .clock :: answered p
  | .readJournal p => [.journal, .noticeMail] ++ answered p
  | .subscribe p | .journalStatus p => .journal :: answered p
  | .readNotices p | .setNoticeMask p => .notices p :: answered p
  | .setBus p => .bus :: answered p
  | .egressReqChange _ => [.pins, .safety]
  | .egressDebounceExpiry => [.safety, .records, .noticeMail, .overtakes, .arbiter] ++ everyLane
  | .overtakeOrder l => .overtakes :: laneEnding l
  | .laneStateReport _ =>
    [.safety, .reports, .overtakes, .escortClears, .occupancy, .records, .noticeMail, .arbiter] ++ everyLane
  | .amnesty => [.arbiter, .table, .amnestyDone]
  | .amnestyDone => [.safety, .arbiter, .amnestyDone, .records, .noticeMail]
  | .freeRestoreClearExpiry l | .clearTimerExpiry l => laneReturn l
  | .lockdownOrder l => [.lockdowns, .lane l, .line l, .arbiter]
  | .escortLockdown => [.escort, .arbiter, .records, .escortLockdowns] ++ everyLane
  | .escortEgressClear => [.escort, .arbiter, .records, .escortClears]
  | .clockAdvance => [.clock, .records, .noticeMail, .table]
  | .sweepStep _ => [.arbiter, .table, .escortEnds, .records]
  | .forcedRevokeStart => [.arbiter, .table, .escortEnds, .withdrawals, .records, .replies .security]
  | .forcedRevokeStep _ | .purgeFirstPassStep _ | .purgeSecondPassStep _ => [.arbiter, .table, .escortEnds]
  | .forcedRevokeEnd | .purgeFinalStep => [.arbiter, .table, .escortEnds, .records, .replies .security]
  | .laneCycle l _ | .noReply l _ | .badReply l _ _ | .jabberReply l _ => laneEnding l
  | .idleReply l _ _ | .presentationReply l _ _ | .senseReply l _ _ | .profileReply l _ _ =>
    [.escort, .sense] ++ laneEnding l
  | .stray l => [.lane l]
  | .retryExpiry l _ | .lockoutExpiry l _ => [.line l]
  | .crossIn l | .pair l => .sense :: laneEnding l
  | .crossOut l | .retreat l => [.sense, .lane l, .line l, .arbiter, .records]
  | .crossLeaf l | .obstructOn l | .obstructOff l | .senseStateUpdate l => [.sense, .lane l, .line l]
  | .openTimerExpiry t => [.lane t.lane, .line t.lane, .arbiter]
  | .transitTimerExpiry t => laneEnding t.lane
  | .obstructionTimerExpiry l => laneEnding l
  | .paceIntervalExpiry l | .displayHoldExpiry l _ => [.lane l, .line l]
  | .reservationHoldExpiry l => [.lane l, .records] ++ anyReply
  | .presentationLookup => .escortEnds :: creation
  | .escortRelease => creation
  | .deskPassLookup p => .replies p :: creation
  | .escortClaimRelease => [.arbiter, .table]
  | .passagePosting => [.arbiter, .table, .results]
  | .windowRemoval l => [.results, .dispatch, .passages, .sponsors] ++ laneReturn l
  | .windowWithdrawal l => [.withdrawals, .lane l, .line l, .arbiter]
  | .occupancyPassage _ => [.passages, .occupancy, .records, .noticeMail, .actions]
  | .sponsorPassage _ => [.sponsors, .escort, .records, .releases] ++ everyLane
  | .laneReleaseNotice l => [.releases, .lane l, .line l, .arbiter, .escort]
  | .escortWaitExpiry _ => [.escort, .arbiter, .records] ++ everyLane
  | .creditExpiry _ => [.escort, .records]
  | .escortEndMessage => [.escortEnds, .escort, .arbiter, .records] ++ everyLane
  | .callTimerExpiry t => [.dispatch, .noticeMail, .records, .indications, .lane t.lane, .line t.lane]
  | .dispatchIndication l => [.indications, .lane l, .line l]
  | .holdForCarReport l => [.holds, .lane l, .line l]
  | .activeActionUpdate l => [.actions, .lane l, .line l]
  | .journalAppend _ => [.records, .journal, .noticeMail]
  | .noticeLevelReport p _ | .latchedNoticeSet p _ => [.noticeMail, .notices p]

/-! ## When a request is taken -/

/-- The part runs, and the port's request stands handed to its block (R187). -/
def Asked (p : Port) (q : Request) (s : State) : Prop := s.resetHeld = false ∧ s.request p = some q

/-- As `Asked`, and the arbiter has come to the port's table operation (R10). -/
def AskedAtTable (p : Port) (q : Request) (s : State) : Prop := Asked p q s ∧ portTurn s p = true

/-- The state with the port's request taken by its block. -/
def taken (p : Port) (s : State) : State := takeRequest p s

/-- The state with the port's request taken at the table, the circle having served the port. -/
def takenTurn (p : Port) (s : State) : State := portServed p (takeRequest p s)

/-- The part runs, and the walker's turn at the table has come (R10). -/
def WalkerTurn (s : State) : Prop := s.resetHeld = false ∧ hasTurn s .walker = true

/-- The walk that ran in `s` has ended: the walker is IDLE, or the walk that waited has started (R20). -/
def WalkEnded (s u : State) : Prop :=
  (s.table.waiting = none → u.table.walk = none ∧ u.table.waiting = none)
    ∧ ∀ q, s.table.waiting = some q → u.table.walk = some (startOf u q) ∧ u.table.waiting = none

/-- A count of removals after a walk's visit to an entry: one more when the visit removed it (R18, R21). -/
def countAfter (s u : State) (c : Cred) (n : Nat) : Nat := if (s.entry c).isSome ∧ (u.entry c).isNone then n + 1 else n

/-- A changed active action is handed on to the eight lanes, to the journal as GOVERNOR, and as the BANK notice of each
port; an unchanged one is not (R120). -/
def ActionHandedOn (s u : State) : Prop :=
  (u.occupancy.activeAction ≠ s.occupancy.activeAction →
    u.mail.actions = s.mail.actions ++ Lane.all.map (fun l => (l, u.occupancy.activeAction))
    ∧ (Source.occupancy, ({ time := s.stamp, code := .bank .governor
                            detail := .bank (governorItems u.occupancy s.occupancy.activeAction
                              u.occupancy.activeAction) } : Record)) ∈ u.mail.records
    ∧ u.mail.notices = s.mail.notices ++ Port.all.map (fun p => .latched p .bank))
  ∧ (u.occupancy.activeAction = s.occupancy.activeAction →
      u.mail.actions = s.mail.actions ∧ u.mail.notices = s.mail.notices)

/-! ## What waits at a lane, and what happens there -/

/-- The part runs, and the lane's oldest sense item is `x`, with these items around it (R60). -/
def SenseWaits (l : Lane) (x : SenseItem) (before after : List (Lane × SenseItem)) (s : State) : Prop :=
  s.resetHeld = false ∧ s.mail.sense = before ++ (l, x) :: after ∧ ∀ y ∈ before, y.1 ≠ l

/-- The lane is in a state in which crossings are attributed: READY, SERVING or ALARM (R60). -/
def Attributed (l : Lane) (s : State) : Prop :=
  (s.lane l).state = .ready ∨ (s.lane l).state = .serving ∨ (s.lane l).state = .alarm

/-- An alarm reason was raised at the lane (R68): it is in ALARM for that reason, its counter went up, each window before
TRANSIT has its posting as WITHDRAWN, and the ALARM record is made. -/
def AlarmRaised (l : Lane) (r : AlarmReason) (s u : State) : Prop :=
  (u.lane l).state = .alarm ∧ (u.lane l).alarmReason = some r
    ∧ (u.lane l).counters = (s.lane l).counters.alarm r
    ∧ (∀ w ∈ (s.lane l).windows, w.state.beforeTransit = true →
        FirstOp.posting ⟨w.tag, w.cred, w.dir, .withdrawn⟩ ∈ u.arbiter.first)
    ∧ (Source.sequencer l, ({ time := s.stamp, code := .alarm r, lane := some l } : Record)) ∈ u.mail.records

/-! ## Invariants of the collections -/

/-- R1, R4: no two entries of one credential, at most 8,192 entries, the RECEPTION count counts, and it and the quota
stay within their bounds. -/
def TableUnit.Lawful (t : TableUnit) : Prop :=
  TableUnit.wf t = true ∧ t.entries.length ≤ Config.tableCapacity
    ∧ t.receptionCount = (t.entries.filter (fun e => e.issuer == .reception)).length
    ∧ t.receptionCount ≤ t.quota ∧ t.quota ≤ Config.quotaMax

/-- The Permit Table is lawful (R1, R4). -/
def TableLaw (s : State) : Prop := TableUnit.Lawful s.table

/-- R31: windows and held places are at most a lane's two places. -/
def PlacesLaw (s : State) : Prop := ∀ l, (s.lane l).windows.length + heldPlaces s l ≤ Config.placesPerLane

/-- R82: the escort list holds at most 16 records. -/
def EscortLaw (s : State) : Prop := s.escort.list.length ≤ Config.escortCapacity

/-- The visitors of the WAITs on a list. -/
def waitingVisitors (xs : List EscortRec) : List Cred :=
  xs.filterMap (fun r => match r with | .wait v _ _ _ _ => some v | .credit _ _ _ => none)

/-- The sponsors of the credits on a list. -/
def creditedSponsors (xs : List EscortRec) : List Cred :=
  xs.filterMap (fun r => match r with | .credit c _ _ => some c | .wait _ _ _ _ _ => none)

/-- R39, R82: no two WAITs of one visitor, and no two credits of one sponsor. -/
def EscortNamesLaw (s : State) : Prop :=
  (waitingVisitors s.escort.list).Nodup ∧ (creditedSponsors s.escort.list).Nodup

/-- R99, R108: the call queue holds at most 32 records, and the loss counter stays within 0 to 255. -/
def CallsLaw (s : State) : Prop :=
  s.dispatch.queue.length ≤ Config.callCapacity ∧ s.dispatch.loss ≤ Config.counterMax

/-- R171: the ring holds at most 512 records, each owed to some port, and each lost count stays within 0 to 255. -/
def RingLaw (s : State) : Prop :=
  s.journal.ring.length ≤ Config.ringCapacity ∧ (∀ r ∈ s.journal.ring, owedAny r.owed = true)
    ∧ ∀ p, s.journal.lost.get p ≤ Config.counterMax

/-- R111, R119: each head count stays within 0 to 65,535, and a disabled group is never ACTIVE. -/
def CountsLaw (s : State) : Prop :=
  s.occupancy.counts.staff ≤ Config.countMax ∧ s.occupancy.counts.contractor ≤ Config.countMax
    ∧ s.occupancy.counts.visitor ≤ Config.countMax
    ∧ ∀ n, (s.occupancy.groups.get n).enabled = false → (s.occupancy.groups.get n).active = false

/-- The six counters of a lane are within 0 to 255 (R76). -/
def Counters.fit (c : Counters) : Prop :=
  c.denial ≤ Config.counterMax ∧ c.tailgate ≤ Config.counterMax ∧ c.intrusion ≤ Config.counterMax
    ∧ c.loiter ≤ Config.counterMax ∧ c.obstruct ≤ Config.counterMax ∧ c.lineError ≤ Config.counterMax

/-- R76, R165: every lane's counters and the disagree counter stay within 0 to 255. -/
def CountersLaw (s : State) : Prop := (∀ l, (s.lane l).counters.fit) ∧ s.clock.disagree ≤ Config.counterMax

/-- R178: a port's ALERT line is asserted exactly when its master mask is clear and an unmasked notice is set. -/
def AlertLaw (s : State) : Prop :=
  ∀ p, (s.notices.get p).alert = alertLine (s.notices.get p).set (s.notices.get p).masked (s.notices.get p).master

/-- R184, R190: the port base lies between 2 and 29, and the stall exponent between 3 and 7. -/
def BusLaw (s : State) : Prop := 2 ≤ s.bus.base ∧ s.bus.base ≤ 29 ∧ 3 ≤ s.bus.stallK ∧ s.bus.stallK ≤ 7

end Sys2Proof.Machine
end

