-- ==== Sys2Proof/Certificates/Slice0/Obligations.lean ====
section
/-!
DEFINITION. The statements for the provers: what the commands do, in the terms of the manual's rules, and the invariants
that every step keeps.
-/

open Sys2Proof Sys2Proof.Machine

/-! ## Steps, resets and the frame of every command -/

/-- A step takes the command at the front of the queue, and its outcome is `exec`'s on the state with the queue's rest.
-/
def Obligations.StepTakesFront : Prop :=
  ∀ (c : Instr) (s : State), step { s with pending := c :: s.pending } = exec c s

/-- The model's choice (log entry 3): with no command waiting a step lets one millisecond of the time base pass and does
nothing else. -/
def Obligations.StepWithNothingWaiting : Prop :=
  ∀ s : State, s.pending = [] → step s = .next { s with time := s.time + 1 }

/-- No command stops: each answers a next state in every state (the model's reading of the manual, log entry 1). -/
def Obligations.EveryCommandAnswersNext : Prop := ∀ (c : Instr) (s : State), ∃ t, exec c s = .next t

/-- What has no effect: while RESET_N is held low, every command but the resets, the level at EGRESS_REQ and the lobby
clock's advance (the model's reading, log entry 9); and a request row whose port has handed on no request (the model's
reading, log entry 2). -/
def Obligations.CommandsWithoutEffect : Prop :=
  (∀ (c : Instr) (s : State), s.resetHeld = true →
    (∀ straps high, c ≠ .powerOn straps high) → c ≠ .warmReset → (∀ straps, c ≠ .leaveWarmReset straps) →
    (∀ high, c ≠ .egressReqChange high) → c ≠ .clockAdvance → exec c s = .next s)
  ∧ ∀ (c : Instr) (s : State) (r : RequestName × Port), c.requestRow = some r → s.request r.2 = none → exec c s = .next s

/-- The frame of all 121 commands: whatever next state a command answers, every block outside its `footprint` is as it
was. -/
def Obligations.CommandsKeepFrame : Prop :=
  ∀ (c : Instr) (s t : State), exec c s = .next t → KeepsAllBut (footprint c) s t

/-! ## Invariants -/

/-- The state right after power-on meets every invariant below. -/
def Obligations.ResetMeetsInvariants : Prop :=
  TableLaw State.reset ∧ PlacesLaw State.reset ∧ EscortLaw State.reset ∧ EscortNamesLaw State.reset ∧ CallsLaw State.reset ∧ RingLaw State.reset
    ∧ CountsLaw State.reset ∧ CountersLaw State.reset ∧ AlertLaw State.reset ∧ BusLaw State.reset

/-- Every step keeps the Permit Table lawful: no two entries of one credential, at most 8,192 entries, and a RECEPTION
count that counts and stays within the quota (R1, R4). -/
def Obligations.StepKeepsTableLaw : Prop := ∀ s t : State, TableLaw s → step s = .next t → TableLaw t

/-- Every step keeps windows and held places within each lane's two places (R31). -/
def Obligations.StepKeepsPlacesLaw : Prop := ∀ s t : State, PlacesLaw s → step s = .next t → PlacesLaw t

/-- Every step keeps the escort list within 16 records, with no two WAITs of one visitor and no two credits of one
sponsor (R39, R82; where a WAIT that the table ended still stands, log entry 31), the call queue within 32 and its loss
counter within 255 (R99, R108), and the journal ring within 512 records, each owed to some port, with the lost counts
within 255 (R171). -/
def Obligations.StepKeepsListBounds : Prop :=
  ∀ s t : State, step s = .next t →
    (EscortLaw s → EscortLaw t) ∧ (EscortNamesLaw s → EscortNamesLaw t) ∧ (CallsLaw s → CallsLaw t) ∧ (RingLaw s → RingLaw t)

/-- Every step keeps the head counts within 65,535 and disabled groups INACTIVE (R111, R119), and the lanes' counters
and the disagree counter within 255 (R76, R165). -/
def Obligations.StepKeepsCounterBounds : Prop :=
  ∀ s t : State, step s = .next t → (CountsLaw s → CountsLaw t) ∧ (CountersLaw s → CountersLaw t)

/-- Every step keeps each ALERT line asserted exactly when the master mask is clear and an unmasked notice is set
(R178), and keeps the port base between 2 and 29 and the stall exponent between 3 and 7 (R184, R190). -/
def Obligations.StepKeepsPinsAndBus : Prop :=
  ∀ s t : State, step s = .next t → (AlertLaw s → AlertLaw t) ∧ (BusLaw s → BusLaw t)

/-! ## Resets -/

/-- R25: the Permit Table and its arbiter at power-on. -/
def Obligations.PowerOnTable : Prop :=
  ∀ (straps : BitVec 5) (high : Bool) (s : State), ∃ t, exec (.powerOn straps high) s = .next t
    ∧ t.table.entries = [] ∧ t.table.entries.length = 0 ∧ t.table.receptionCount = 0 ∧ t.table.quota = 1024
    ∧ t.table.departed = [] ∧ t.table.walk = none ∧ t.table.waiting = none
    ∧ t.arbiter.first = [] ∧ t.arbiter.second = [] ∧ (∀ p, t.arbiter.desk.get p = none) ∧ t.arbiter.amnesty = false
    ∧ (∀ p, portWaits t p = false) ∧ (∀ c, claimantWaits t c = false) ∧ t.arbiter.next = .security

/-- R123: the head counts and the governor at power-on. -/
def Obligations.PowerOnGovernor : Prop :=
  ∀ (straps : BitVec 5) (high : Bool) (s : State), ∃ t, exec (.powerOn straps high) s = .next t
    ∧ t.occupancy.counts.staff = 0 ∧ t.occupancy.counts.contractor = 0 ∧ t.occupancy.counts.visitor = 0
    ∧ t.occupancy.uncertain = false
    ∧ (∀ n, (t.occupancy.groups.get n).enabled = false ∧ (t.occupancy.groups.get n).active = false
        ∧ (t.occupancy.groups.get n).source = .total ∧ (t.occupancy.groups.get n).high = 65535
        ∧ (t.occupancy.groups.get n).low = 0 ∧ (t.occupancy.groups.get n).action = .pace
        ∧ (t.occupancy.groups.get n).mode = .eighths ∧ (t.occupancy.groups.get n).n = 7
        ∧ (t.occupancy.groups.get n).barred = 0)
    ∧ t.occupancy.nominal = 1000 ∧ t.occupancy.activeAction = .none

/-- Power-on leaves every block at its power-on values: the lanes and the bank (R80), the escort unit (R97), the
dispatch unit (R110), the bank safety unit (R125), with the egress debounce running when EGRESS_REQ is high (R138), the
lane lines (R160), the clock (R168), the journal (R181), the notices (R182), the bus and the ports (R192), with the
port base of the straps (R184). The time base starts again at 0 (log entry 3). Values the manual gives no power-on
value for are the model's (log entries 4, 5 and 27). -/
def Obligations.PowerOnUnits : Prop :=
  ∀ (straps : BitVec 5) (high : Bool) (s : State), ∃ t, exec (.powerOn straps high) s = .next t
    ∧ t = { State.reset with
        pending := s.pending, pins := { s.pins with straps := straps, egressReq := high }
        bus := { BusUnit.reset with
          base := if straps.toNat < 2 then 2 else if straps.toNat > 29 then 29 else straps.toNat }
        safety := { SafetyUnit.reset with debounceDue := if high then some 50 else none } }
    ∧ t.bank.mode = .secured ∧ t.bank.mask = 0 ∧ t.bank.qualified = true
    ∧ (∀ l, (t.lane l).settings.source = .bank ∧ (t.lane l).settings.mode = .secured ∧ (t.lane l).settings.openTime = 8
        ∧ (t.lane l).settings.transitLimit = 12 ∧ (t.lane l).settings.clearTime = 2
        ∧ (t.lane l).settings.alarmLatch = false
        ∧ (∀ q, hasLeaf (t.lane l).settings.allowedLeaf q = true)
        ∧ (∀ m, hasMedium (t.lane l).settings.allowedMedia m = true))
    ∧ (∀ l, (t.lane l).state = .enumerating ∧ (t.lane l).windows = [] ∧ heldPlaces t l = 0
        ∧ (t.lane l).reservation = none ∧ (t.lane l).counters = ⟨0, 0, 0, 0, 0, 0⟩ ∧ (t.lane l).nextSerial = 0
        ∧ (∀ rd, ((t.lane l).display rd).waiting = none ∧ ((t.lane l).display rd).holdDue = none)
        ∧ (t.lane l).leafPos = .closed ∧ (t.lane l).zones.empty = true ∧ (t.lane l).obstruction = false
        ∧ (t.lane l).travel = none)
    ∧ t.escort.list = [] ∧ t.escort.interval = 60
    ∧ t.dispatch.queue = [] ∧ t.dispatch.loss = 0 ∧ t.dispatch.dispatch = false ∧ t.dispatch.holdForCar = false
    ∧ t.dispatch.timeout = 3
    ∧ t.safety.called = false ∧ t.safety.egress = .normal ∧ t.safety.overtake = false ∧ t.safety.releaseWaiting = false
    ∧ t.safety.restorePermitted = false ∧ t.safety.needsRequest = false ∧ t.safety.lockdown = false
    ∧ (∀ l x, ((t.line l).slot x).status = .querying ∧ ((t.line l).slot x).round = true
        ∧ ((t.line l).slot x).tries = 0 ∧ ((t.line l).slot x).probeSent = false
        ∧ ((t.line l).slot x).profile = none ∧ ((t.line l).slot x).inferred = false ∧ ((t.line l).slot x).miss = 0
        ∧ ((t.line l).slot x).retry = .stopped ∧ ((t.line l).slot x).lockout = .stopped)
    ∧ (∀ l, (t.line l).pendingCmd = none ∧ (t.line l).showOuter = none ∧ (t.line l).showInner = none
        ∧ (t.line l).nextCycle ≤ t.time + 20)
    ∧ t.clock.secs = 0 ∧ t.clock.set = false ∧ t.clock.source = .securityOnly ∧ t.clock.disagree = 0
    ∧ t.journal.ring = [] ∧ (∀ p, unread t.journal.ring p = 0 ∧ t.journal.lost.get p = 0)
    ∧ t.journal.subs.security = 0b1111111111 ∧ t.journal.subs.reception = 0b0000010011
    ∧ t.journal.subs.dispatch = 0b0000100010
    ∧ (∀ p n, (t.notices.get p).set.getLsbD (Notice.num n) = false
        ∧ (t.notices.get p).masked.getLsbD (Notice.num n) = true
        ∧ (t.notices.get p).master = true ∧ (t.notices.get p).alert = false)
    ∧ t.bus.seen = .ignoring ∧ t.bus.stallK = 5
    ∧ (∀ p, (t.port p).state = .idle ∧ (t.port p).buffer = [] ∧ (t.port p).slot = none)

/-- A warm reset clears windows, claims, walks, queues, the ring, the ports and every message, keeps every setting, and
puts each unmasked lane to ENUMERATING with every slot in a new round. What no rule gives there is the model's (log
entry 5), and so is the loss of every message on its way between the blocks (log entry 37). -/
def Obligations.WarmResetClears : Prop :=
  ∀ s : State, ∃ t, exec .warmReset s = .next t
    ∧ t.resetHeld = true ∧ t.pending = s.pending ∧ t.time = s.time ∧ t.pins = s.pins ∧ t.bank = s.bank ∧ t.clock = s.clock
    ∧ t.table.entries = s.table.entries.map (fun e => { e with claim := none, inRemoval := false })
    ∧ t.table.receptionCount = s.table.receptionCount ∧ t.table.quota = s.table.quota
    ∧ t.table.departed = [] ∧ t.table.walk = none ∧ t.table.waiting = none ∧ t.arbiter = Arbiter.reset
    ∧ (∀ l, t.lane l = { LaneUnit.reset with
          state := if hasLane s.bank.mask l then .masked else .enumerating
          settings := (s.lane l).settings, action := t.occupancy.activeAction })
    ∧ (∀ l x, (t.line l).slot x = if hasLane s.bank.mask l then SlotRec.off else SlotRec.reset)
    ∧ (∀ l, (t.line l).pendingCmd = none ∧ (t.line l).showOuter = none ∧ (t.line l).showInner = none
        ∧ (t.line l).await = none)
    ∧ t.escort = ⟨[], s.escort.interval⟩ ∧ t.dispatch = { s.dispatch with queue := [], loss := 0 }
    ∧ t.occupancy = { s.occupancy with groups := s.occupancy.groups.map (Group.evaluate s.occupancy.counts) }
    ∧ t.safety = { s.safety with debounceDue := none, claimStands := false }
    ∧ t.journal.ring = [] ∧ t.journal.subs = s.journal.subs ∧ (∀ p, t.journal.lost.get p = 0)
    ∧ (∀ p, t.notices.get p = { s.notices.get p with set := 0, alert := false })
    ∧ (∀ p, t.port p = PortUnit.reset)
    ∧ t.bus.seen = .ignoring ∧ t.bus.base = s.bus.base ∧ t.bus.stallK = s.bus.stallK ∧ t.mail = Mail.reset

/-- Leaving a warm reset reads the straps, restarts every lane's cycles and compares EGRESS_REQ again; an overtake that
the reset met becomes EGRESS, with its hand-on to the escort unit, and then RESTORING when a release waited; a restore
that the reset met is tested for its end (R138); without a reset held, nothing happens. BANK_RESET is a warm reset that
is left in the same step (the straps it reads are its operand), and has no reply (R191). That a BANK_RESET is left in
its own step, that cycles start at once, and that the waiting release is taken in the same step, not in one of its own,
are the model's choices (log entries 13, 27 and 18). -/
def Obligations.WarmResetLeft : Prop :=
  (∀ (straps : BitVec 5) (s : State),
      (s.resetHeld = false → exec (.leaveWarmReset straps) s = .next s)
      ∧ (s.resetHeld = true → s.safety.debounceDue = none →
          (s.safety.overtake = false → s.safety.egress ≠ .restoring → exec (.leaveWarmReset straps) s = .next
            { s with
              resetHeld := false, lines := s.lines.map (fun u => { u with nextCycle := s.time })
              pins := { s.pins with straps := straps }, bus := { s.bus with base := portBase straps }
              safety := { s.safety with
                debounceDue := if s.pins.egressReq = s.safety.called then none else some (s.time + 50) } })
          ∧ (s.safety.overtake = true → s.safety.releaseWaiting = false →
              ∃ t, exec (.leaveWarmReset straps) s = .next t ∧ t.resetHeld = false ∧ t.pins.straps = straps
                ∧ t.bus.base = portBase straps ∧ (∀ l, (t.line l).nextCycle = s.time)
                ∧ t.safety.overtake = false ∧ t.safety.egress = .egress ∧ t.occupancy.uncertain = true
                ∧ t.mail.escortClears = s.mail.escortClears + 1
                ∧ t.safety.debounceDue = if s.pins.egressReq = s.safety.called then none else some (s.time + 50))
          ∧ (s.safety.overtake = true → s.safety.releaseWaiting = true →
              ∃ t, exec (.leaveWarmReset straps) s = .next t ∧ t.resetHeld = false ∧ t.bus.base = portBase straps
                ∧ t.safety.overtake = false ∧ t.safety.releaseWaiting = false ∧ t.safety.egress = .restoring
                ∧ t.safety.restorePermitted = !s.safety.needsRequest)
          ∧ (s.safety.overtake = false → s.safety.egress = .restoring →
              ∃ t, exec (.leaveWarmReset straps) s = .next t ∧ t.resetHeld = false ∧ t.bus.base = portBase straps
                ∧ t.safety.egress = .restoring
                ∧ (s.safety.restorePermitted = true → (∀ l, (s.lane l).state ≠ .free) → s.mail.amnestyDone = 0 →
                    t.arbiter.amnesty = true))))
  ∧ (∀ (p : Port) (straps : BitVec 5) (s : State), Asked p .bankReset s →
      ∃ u t, exec .warmReset s = .next u ∧ exec (.leaveWarmReset straps) u = .next t
        ∧ exec (.bankReset p straps) s = .next t ∧ t.resetHeld = false ∧ t.bus.seen = .ignoring
        ∧ t.bus.base = portBase straps ∧ ∀ q, t.mail.replies.get q = none)

/-! ## Foyer Bus -/

/-- The marks (R183, R185, R186, R187). A start mark is taken in IDLE alone, and not while a BANK_RESET stands handed
on (R191, log entry 41). A stop mark leads to IDLE from every state; in a transaction it gives back a port written no
byte, and takes the request of a port written some, which the port unit refuses with a reply or hands on, judging it in
the same event (log entry 48); it hands a beacon to the clock. A repeated start in a transaction is a stop mark and a
start mark. -/
def Obligations.BusMarks : Prop :=
  ∀ s : State, s.resetHeld = false →
    (s.bus.seen = .idle → (∀ p, s.request p ≠ some .bankReset) → exec .startMark s = .next
      { s with bus := { s.bus with seen := .busy ⟨.address, none, 2 ^ s.bus.stallK⟩, lastEdge := s.time } })
    ∧ (∀ p, s.request p = some .bankReset → exec .startMark s = .next s)
    ∧ (s.bus.seen ≠ .idle → exec .startMark s = .next s)
    ∧ ((∀ t, s.bus.seen ≠ .busy t) → exec .stopMark s = .next { s with bus := { s.bus with seen := .idle } }
        ∧ exec .repeatedStart s = .next s)
    ∧ (∀ t, s.bus.seen = .busy t →
        (∃ u v, exec .stopMark s = .next u ∧ exec .startMark u = .next v ∧ exec .repeatedStart s = .next v)
        ∧ (t.phase = .address ∨ t.phase = .aside ∨ (∃ p src n, t.phase = .read p src n) ∨ (∃ p n, t.phase = .held p n) →
            exec .stopMark s = .next { s with bus := { s.bus with seen := .idle } })
        ∧ (∀ bytes tooLong, t.phase = .broadcast bytes tooLong → ∃ u, exec .stopMark s = .next u ∧ u.bus.seen = .idle
            ∧ u.mail.beacons = s.mail.beacons
                ++ (match tooLong, parseBeacon bytes with | false, some v => [v] | _, _ => []))
        ∧ (∀ p, t.phase = .write p →
            ((s.port p).buffer = [] → ∃ u, exec .stopMark s = .next u ∧ u.bus.seen = .idle
              ∧ u.port p = { s.port p with
                  state := if (s.port p).fromReady then .replyReady else .idle, buffer := [], overlong := false })
            ∧ ((s.port p).buffer ≠ [] →
                (∀ q, judgeRequest p (s.port p).overlong (s.port p).buffer = .handedOn q →
                  ∃ u, exec .stopMark s = .next u ∧ u.bus.seen = .idle ∧ (u.port p).state = .inProgress
                    ∧ (u.port p).slot = none ∧ u.request p = some q ∧ (u.port p).buffer = [])
                ∧ (∀ st, judgeRequest p (s.port p).overlong (s.port p).buffer = .refused st →
                  ∃ u, exec .stopMark s = .next u ∧ u.bus.seen = .idle ∧ (u.port p).state = .replyReady
                    ∧ (u.port p).slot = some [BitVec.ofNat 8 st.num, 0] ∧ (u.port p).buffer = []))))

/-- The first byte of a transaction (R184, R185): an address at or above 8 that is 4 × base and a role number reaches
that port, address 0 is the broadcast address, written only, and any other address goes unanswered. -/
def Obligations.AddressBytes : Prop :=
  ∀ (b : Byte) (s : State) (t : Txn), s.resetHeld = false → BusLaw s → s.bus.seen = .busy t → t.phase = .address →
    (∀ p : Port, b.toNat / 2 = 4 * s.bus.base + p.num →
      (b.getLsbD 0 = false →
        ((s.port p).state = .idle ∨ (s.port p).state = .replyReady →
          ∃ u, exec (.addressByte b) s = .next u ∧ u.bus.lastAck = some .acknowledged
            ∧ u.bus.seen = .busy { t with phase := .write p, addressed := some p }
            ∧ u.port p = { s.port p with
                state := .receiving, fromReady := (s.port p).state == .replyReady, buffer := [], overlong := false })
        ∧ ((s.port p).state = .receiving ∨ (s.port p).state = .inProgress →
          ∃ u, exec (.addressByte b) s = .next u ∧ u.bus.lastAck = some .refused ∧ u.ports = s.ports
            ∧ u.bus.seen = .busy { t with phase := .aside, addressed := some p }))
      ∧ (b.getLsbD 0 = true →
          ∃ u, exec (.addressByte b) s = .next u ∧ u.bus.lastAck = some .acknowledged ∧ u.ports = s.ports
            ∧ u.bus.seen = .busy { t with
                addressed := some p
                phase := match (s.port p).state with
                  | .replyReady => .read p .slot 0
                  | .inProgress => .held p s.time
                  | .idle | .receiving => .read p (.fixed [2, 0]) 0 }))
    ∧ (b.toNat / 2 = 0 →
        ∃ u, exec (.addressByte b) s = .next u ∧ u.ports = s.ports
          ∧ u.bus.lastAck = some (if b.getLsbD 0 then .refused else .acknowledged)
          ∧ u.bus.seen = .busy { t with phase := if b.getLsbD 0 then .aside else .broadcast [] false })
    ∧ (b.toNat / 2 ≠ 0 → (∀ p : Port, b.toNat / 2 ≠ 4 * s.bus.base + p.num) →
        ∃ u, exec (.addressByte b) s = .next u ∧ u.ports = s.ports ∧ u.bus.lastAck = some .unanswered
          ∧ u.bus.seen = .busy { t with phase := .aside })

/-- The data bytes of a write and of a broadcast write (R185, R186): forty are kept, and each after them is refused and
makes the write overlong; in a transaction the part takes no part in, only the edges are seen. The bytes of a read
(R188), whether or not the master acknowledges them: the reply's in their order, and filler after its end; the last
byte of a slot's reply empties the slot, makes the port IDLE and reports REPLY_READY clear. -/
def Obligations.TransactionBytes : Prop :=
  (∀ (b : Byte) (s : State) (t : Txn), s.resetHeld = false → s.bus.seen = .busy t →
      (∀ p, t.phase = .write p → ∃ u, exec (.requestDataByte b) s = .next u ∧ u.bus.seen = .busy t
        ∧ u.bus.lastEdge = s.time
        ∧ ((s.port p).buffer.length < 40 → u.bus.lastAck = some .acknowledged
            ∧ u.port p = { s.port p with buffer := (s.port p).buffer ++ [b] })
        ∧ (40 ≤ (s.port p).buffer.length → u.bus.lastAck = some .refused ∧ u.port p = { s.port p with overlong := true }))
      ∧ (∀ bytes tooLong, t.phase = .broadcast bytes tooLong → ∃ u, exec (.requestDataByte b) s = .next u ∧ u.ports = s.ports
        ∧ u.bus.lastEdge = s.time
        ∧ (bytes.length < 40 → u.bus.lastAck = some .acknowledged
            ∧ u.bus.seen = .busy { t with phase := .broadcast (bytes ++ [b]) tooLong })
        ∧ (40 ≤ bytes.length → u.bus.lastAck = some .refused ∧ u.bus.seen = .busy { t with phase := .broadcast bytes true }))
      ∧ (t.phase = .aside → ∃ u, exec (.requestDataByte b) s = .next u ∧ u.ports = s.ports ∧ u.bus.seen = .busy t
        ∧ u.bus.lastEdge = s.time ∧ u.bus.lastAck = some .unanswered))
  ∧ (∀ (ack : Bool) (s : State) (t : Txn) (p : Port) (src : ReadSource) (n : Nat), s.resetHeld = false →
      s.bus.seen = .busy t → t.phase = .read p src n →
      (∀ bytes, src = .slot → (s.port p).slot = some bytes → n + 1 < bytes.length →
        exec (.replyByteSent ack) s = .next { s with bus := { s.bus with
          seen := .busy { t with phase := .read p .slot (n + 1) }, lastEdge := s.time, lastByte := some (bytes.getD n 0xFF) } })
      ∧ (∀ bytes, src = .slot → (s.port p).slot = some bytes → n + 1 = bytes.length →
        ∃ u, exec (.replyByteSent ack) s = .next u ∧ u.bus.lastByte = some (bytes.getD n 0xFF)
          ∧ u.bus.seen = .busy { t with phase := .read p (.fixed []) 0 } ∧ u.port p = { s.port p with state := .idle, slot := none }
          ∧ u.mail.notices = s.mail.notices ++ [.level p .replyReady false])
      ∧ (∀ bytes, src = .fixed bytes →
        exec (.replyByteSent ack) s = .next { s with bus := { s.bus with
          seen := .busy { t with phase := .read p (.fixed bytes) (n + 1) }, lastEdge := s.time
          lastByte := some (bytes.getD n 0xFF) } }))

/-- A block's reply reaches its port's slot and releases a read held for it (R187, R189); a hold of 25 ms gives
NOT_READY (R189); a stall abandons the transaction, with the STALL notice at the port addressed (R190), measured from
the last edge, those inside a byte counted (log entry 40); and SET_BUS sets the stall exponent within 3 to 7 (R190). -/
def Obligations.RepliesHoldsAndStalls : Prop :=
  ∀ s : State, s.resetHeld = false →
    (∀ p bytes, s.mail.replies.get p = some bytes →
      ∃ u, exec (.replyToSlot p) s = .next u ∧ (u.port p).state = .replyReady ∧ (u.port p).slot = some bytes
        ∧ u.mail.replies.get p = none ∧ u.mail.notices = s.mail.notices ++ [.level p .replyReady true]
        ∧ (∀ t since, s.bus.seen = .busy t → t.phase = .held p since →
            u.bus.seen = .busy { t with phase := .read p .slot 0 })
        ∧ ((∀ t since, s.bus.seen = .busy t → t.phase ≠ .held p since) → u.bus = s.bus))
    ∧ (∀ t p since, s.bus.seen = .busy t → t.phase = .held p since →
        (since + 25 ≤ s.time → exec .holdLimitExpiry s = .next { s with bus := { s.bus with
          seen := .busy { t with phase := .read p (.fixed [1, 0]) 0 }, lastEdge := s.time } })
        ∧ (s.time < since + 25 → exec .holdLimitExpiry s = .next s)
        ∧ exec .stallLimitExpiry s = .next s)
    ∧ (∀ t, s.bus.seen = .busy t → (∀ p since, t.phase ≠ .held p since) →
        (s.time ≤ s.bus.lastEdge + t.limit ∨ (∃ edge ∈ s.pins.edges, edge ≤ s.time ∧ s.time ≤ edge + t.limit) →
          exec .stallLimitExpiry s = .next s)
        ∧ (s.bus.lastEdge + t.limit < s.time → (∀ edge ∈ s.pins.edges, edge ≤ s.time → edge + t.limit < s.time) →
            ∃ u, exec .stallLimitExpiry s = .next u ∧ u.bus.seen = .ignoring
            ∧ u.mail.notices = s.mail.notices
                ++ (match t.addressed with | some p => [.latched p .stall] | none => [])
            ∧ (∀ p, t.phase = .write p → u.port p = { s.port p with
                state := if (s.port p).fromReady then .replyReady else .idle, buffer := [], overlong := false })))
    ∧ (∀ p k, Asked p (.setBus k) s →
        exec (.setBus p) s = .next
          (if 3 ≤ k.toNat ∧ k.toNat ≤ 7 then answer p .ok [] { taken p s with bus := { s.bus with stallK := k.toNat } }
           else answer p .badField [] (taken p s)))

/-! ## Lobby clock -/

/-- The advance (R161, R162): after 1,000 ms one second is added; the wrap makes the flag UNSET, with its record and the
CLOCK notice; a multiple of 60 reached with the flag SET starts a sweep of the entries present, or is skipped with a
record while a walk runs or waits. In reset the clock goes on and hands nothing on (R168). -/
def Obligations.ClockAdvance : Prop :=
  ∀ s : State,
    (s.time < s.clock.mark + 1000 → exec .clockAdvance s = .next s)
    ∧ (s.clock.mark + 1000 ≤ s.time → ∃ u, exec .clockAdvance s = .next u
        ∧ u.clock = { s.clock with
            secs := s.clock.secs + 1, set := s.clock.set && s.clock.secs != 0xFFFFFFFF, mark := s.clock.mark + 1000 }
        ∧ (s.resetHeld = true → u = { s with clock := u.clock })
        ∧ (s.resetHeld = false → s.clock.secs = 0xFFFFFFFF →
            u.mail.records = s.mail.records ++ [(.clock, { time := .unset, code := .clock .wrapped })]
            ∧ u.mail.notices = s.mail.notices ++ Port.all.map (fun p => .latched p .clock) ∧ u.table = s.table)
        ∧ (s.resetHeld = false → s.clock.secs ≠ 0xFFFFFFFF →
            (s.clock.set = false ∨ (s.clock.secs + 1).toNat % 60 ≠ 0 → u = { s with clock := u.clock })
            ∧ (s.clock.set = true → (s.clock.secs + 1).toNat % 60 = 0 →
                (s.table.walk = none → s.table.waiting = none → s.table.entries ≠ [] →
                  u.table = { s.table with walk := some (.sweep (presentCreds s) 0) } ∧ u.mail = s.mail)
                ∧ (s.table.walk ≠ none ∨ s.table.waiting ≠ none → u.table = s.table
                  ∧ u.mail.records = s.mail.records
                      ++ [(.table, { time := .time (s.clock.secs + 1), code := .table .sweepSkipped })]))))

/-- SET_CLOCK, SET_CLOCK_SOURCE and READ_CLOCK (R163, R164, R166). Reply bytes that R193 leaves open follow log entry
7. -/
def Obligations.ClockRequests : Prop :=
  ∀ (p : Port) (s : State),
    (∀ v, Asked p (.setClock v) s → ∃ u, exec (.setClock p) s = .next u
      ∧ u.clock = { s.clock with secs := v, set := true, mark := s.time }
      ∧ u.mail.replies.get p = some (replyBytes .ok (b4 s.clock.secs ++ [if s.clock.set then 0 else 1]))
      ∧ u.mail.records = s.mail.records
          ++ [(.clock, { time := .time v, code := .clock .clockSet, detail := .clock s.clock.secs (!s.clock.set) })])
    ∧ (∀ b, Asked p (.setClockSource b) s →
      (b = 0 → exec (.setClockSource p) s
        = .next (answer p .ok [] { taken p s with clock := { s.clock with source := .securityOnly } }))
      ∧ (b = 1 → exec (.setClockSource p) s
        = .next (answer p .ok [] { taken p s with clock := { s.clock with source := .beacon } }))
      ∧ (1 < b.toNat → exec (.setClockSource p) s = .next (answer p .badField [] (taken p s))))
    ∧ (Asked p .readClock s → exec (.readClock p) s = .next
        { answer p .ok (b4 s.clock.secs ++ [if s.clock.set then 0 else 1] ++ b1 s.clock.source.num ++ b1 s.clock.disagree)
            (taken p s) with
          clock := { s.clock with disagree := if p = .security then 0 else s.clock.disagree } })

/-- A beacon at the clock (R165), by source, flag and step. -/
def Obligations.BeaconAtClock : Prop :=
  ∀ (s : State) (v : Secs) (rest : List Secs), s.resetHeld = false → s.mail.beacons = v :: rest →
    ∃ u, exec .timeBeacon s = .next u ∧ u.mail.beacons = rest
      ∧ (s.clock.source = .securityOnly → u.clock = s.clock ∧ u.mail.records = s.mail.records
          ∧ u.mail.notices = s.mail.notices)
      ∧ (s.clock.source = .beacon → s.clock.set = false →
          u.clock = { s.clock with secs := v, set := true, mark := s.time }
          ∧ u.mail.records = s.mail.records
              ++ [(.clock, { time := .time v, code := .clock .beaconSet, detail := .clock s.clock.secs true })])
      ∧ (s.clock.source = .beacon → s.clock.set = true →
          (v = s.clock.secs → u.clock = { s.clock with mark := s.time } ∧ u.mail.records = s.mail.records)
          ∧ (v ≠ s.clock.secs → v.toNat ≤ s.clock.secs.toNat + 5 → s.clock.secs.toNat ≤ v.toNat + 5 →
              u.clock = { s.clock with secs := v, mark := s.time }
              ∧ u.mail.records = s.mail.records
                  ++ [(.clock, { time := .time v, code := .clock .beaconStep, detail := .clock s.clock.secs false })]
              ∧ u.mail.notices = s.mail.notices)
          ∧ (s.clock.secs.toNat + 5 < v.toNat ∨ v.toNat + 5 < s.clock.secs.toNat →
              u.clock = { s.clock with disagree := saturate s.clock.disagree }
              ∧ u.mail.records = s.mail.records
                  ++ [(.clock, { time := .time s.clock.secs, code := .clock .beaconRejected, detail := .clock v false })]
              ∧ u.mail.notices = s.mail.notices ++ Port.all.map (fun p => .latched p .clock)))

/-! ## Occupancy and governor -/

/-- R115: COUNTS, which every port may write, replies with the three head counts, the total and the counts-uncertain
flag, and changes nothing. -/
def Obligations.CountsReplies : Prop :=
  ∀ (p : Port) (s : State), Asked p .counts s → hasRight .counts p = true ∧
    exec (.counts p) s = .next (answer p .ok
      (b2 s.occupancy.counts.staff ++ b2 s.occupancy.counts.contractor ++ b2 s.occupancy.counts.visitor
        ++ b3 (s.occupancy.counts.staff + s.occupancy.counts.contractor + s.occupancy.counts.visitor)
        ++ [if s.occupancy.uncertain then 1 else 0]) (taken p s))

/-- A passage handed to the occupancy unit (R112, R118): one is added or taken away within 0 to 65,535, the groups that
watch the class or the total are evaluated, and at either bound the count stays and counts-uncertain is set. -/
def Obligations.PassageCounted : Prop :=
  ∀ (l : Lane) (s : State), s.resetHeld = false →
    ((∀ y ∈ s.mail.passages, y.lane ≠ l) → exec (.occupancyPassage l) s = .next s)
    ∧ ∀ (x : CountedPassage) (before after : List CountedPassage),
    s.mail.passages = before ++ x :: after → x.lane = l → (∀ y ∈ before, y.lane ≠ l) →
    ∃ u, exec (.occupancyPassage l) s = .next u ∧ u.mail.passages = before ++ after
      ∧ (x.dir = .entry → s.occupancy.counts.of x.cls < 65535 →
          u.occupancy.counts.of x.cls = s.occupancy.counts.of x.cls + 1 ∧ u.occupancy.uncertain = s.occupancy.uncertain)
      ∧ (x.dir = .exit → 0 < s.occupancy.counts.of x.cls →
          u.occupancy.counts.of x.cls = s.occupancy.counts.of x.cls - 1 ∧ u.occupancy.uncertain = s.occupancy.uncertain)
      ∧ (x.dir = .entry ∧ 65535 ≤ s.occupancy.counts.of x.cls ∨ x.dir = .exit ∧ s.occupancy.counts.of x.cls = 0 →
          u.occupancy = { s.occupancy with uncertain := true })
      ∧ (∀ k, k ≠ x.cls → u.occupancy.counts.of k = s.occupancy.counts.of k)
      ∧ (∀ n, ((u.occupancy.groups.get n).active = true ↔
          if u.occupancy.counts ≠ s.occupancy.counts
              ∧ ((s.occupancy.groups.get n).source = .total ∨ (s.occupancy.groups.get n).source = Class.source x.cls) then
            (s.occupancy.groups.get n).enabled = true
              ∧ ((s.occupancy.groups.get n).high ≤ u.occupancy.counts.source (s.occupancy.groups.get n).source
                ∨ (s.occupancy.groups.get n).low < u.occupancy.counts.source (s.occupancy.groups.get n).source
                  ∧ (s.occupancy.groups.get n).active = true)
          else (s.occupancy.groups.get n).active = true))
      ∧ (u.occupancy.activeAction ≠ s.occupancy.activeAction →
          u.mail.actions = s.mail.actions ++ Lane.all.map (fun m => (m, u.occupancy.activeAction)))
      ∧ (u.occupancy.activeAction = s.occupancy.activeAction → u.mail.actions = s.mail.actions)

/-- SET_COUNTS, SET_GOVERNOR and GOVERNOR_STATUS at the occupancy unit, and a lane's taking of a changed active action
(R114, R118 to R122): a write that changes the active action hands it on (R120; the group a GOVERNOR record's count is
of is log entry 12). Reply bytes that R193 leaves open follow log entry 7. -/
def Obligations.GovernorRequests : Prop :=
  ∀ (p : Port) (s : State),
    (∀ a b c, Asked p (.setCounts a b c) s →
      (65535 < a ∨ 65535 < b ∨ 65535 < c → exec (.setCounts p) s = .next (answer p .badField [] (taken p s)))
      ∧ (a ≤ 65535 → b ≤ 65535 → c ≤ 65535 → ∃ u, exec (.setCounts p) s = .next u
          ∧ u.occupancy = { s.occupancy with
              counts := ⟨a, b, c⟩, uncertain := false, groups := s.occupancy.groups.map (Group.evaluate ⟨a, b, c⟩) }
          ∧ u.mail.replies.get p = some (replyBytes .ok [])
          ∧ (Source.occupancy, { time := s.stamp, code := .bank .countsSet,
                                 detail := .bank (b2 a ++ b2 b ++ b2 c ++ [yes s.occupancy.uncertain]) })
              ∈ u.mail.records
          ∧ ActionHandedOn s u))
    ∧ (∀ g c nominal, Asked p (.setGovernor g c nominal) s → ∃ u, exec (.setGovernor p) s = .next u
      ∧ (nominalFits nominal = false ∨ (g = 0xFF ∧ c.any = true) ∨ (g ≠ 0xFF ∧ 3 < g.toNat)
          ∨ (g.toNat ≤ 3 ∧ writtenGroup (s.occupancy.groups.get g.toNat) c = none) →
            u = answer p .badField [] (taken p s))
      ∧ (nominalFits nominal = true → g = 0xFF → c.any = false →
          u.occupancy = { s.occupancy with nominal := nominal.getD s.occupancy.nominal }
          ∧ u.mail.replies.get p = some (replyBytes .ok [groupByte u.occupancy.activeAction.group]) ∧ ActionHandedOn s u)
      ∧ (∀ x, nominalFits nominal = true → g.toNat ≤ 3 → writtenGroup (s.occupancy.groups.get g.toNat) c = some x →
          x.low < x.high ∧ (x.action = .bar → x.barred ≠ 0)
          ∧ u.occupancy.nominal = nominal.getD s.occupancy.nominal ∧ u.occupancy.counts = s.occupancy.counts
          ∧ (c.any = true → u.occupancy.groups = s.occupancy.groups.set g.toNat (x.evaluate s.occupancy.counts))
          ∧ (c.any = false → u.occupancy.groups = s.occupancy.groups)
          ∧ u.mail.replies.get p = some (replyBytes .ok
              [if (u.occupancy.groups.get g.toNat).active then 0 else 1, groupByte u.occupancy.activeAction.group])
          ∧ ActionHandedOn s u))
    ∧ (Asked p .governorStatus s →
        exec (.governorStatus p) s = .next (answer p .ok (governorBody s.occupancy) (taken p s)))
    ∧ (∀ l a before after, s.resetHeld = false → s.mail.actions = before ++ (l, a) :: after → (∀ y ∈ before, y.1 ≠ l) →
        ∃ u, exec (.activeActionUpdate l) s = .next u ∧ (u.lane l).action = a ∧ u.mail.actions = before ++ after
          ∧ (∀ w, a = .none → (s.lane l).windows = [w] → w.state = .paced →
              ∃ v, (u.lane l).windows = [v] ∧ v.tag = w.tag ∧ v.state = .opened))

/-! ## Journal and notices -/

/-- A record is appended (R170 to R172): discarded when no port is owed it; otherwise it joins the ring with its owed
set, a full ring losing its oldest record, which charges each port it was still owed to. The running number of a record
is the model's own (log entry 19). -/
def Obligations.RecordAppended : Prop :=
  ∀ (src : Source) (s : State), s.resetHeld = false →
    ((∀ x ∈ s.mail.records, x.1 ≠ src) → exec (.journalAppend src) s = .next s)
    ∧ ∀ (r : Record) (before after : List (Source × Record)),
        s.mail.records = before ++ (src, r) :: after → (∀ y ∈ before, y.1 ≠ src) →
        ∃ u, exec (.journalAppend src) s = .next u ∧ u.mail.records = before ++ after
          ∧ ((∀ p, (s.journal.subs.get p).getLsbD r.code.kind = false) → u.journal = s.journal)
          ∧ ((∃ p, (s.journal.subs.get p).getLsbD r.code.kind = true) →
              u.journal.subs = s.journal.subs
              ∧ (s.journal.ring.length < 512 →
                  u.journal.ring = s.journal.ring ++ [⟨r, owedSet s.journal.subs r, s.journal.nextSeq⟩]
                  ∧ u.journal.lost = s.journal.lost)
              ∧ (∀ d rest, s.journal.ring = d :: rest → 511 ≤ rest.length →
                  u.journal.ring = rest ++ [⟨r, owedSet s.journal.subs r, s.journal.nextSeq⟩]
                  ∧ ∀ p, u.journal.lost.get p
                      = if d.owed.get p then saturate (s.journal.lost.get p) else s.journal.lost.get p))

/-- READ_JOURNAL, SUBSCRIBE and JOURNAL_STATUS (R173 to R175). Record bytes that R195 leaves open follow log entry 7. -/
def Obligations.JournalRequests : Prop :=
  ∀ (p : Port) (s : State),
    (∀ b, Asked p (.readJournal b) s →
      (b.toNat = 0 ∨ 4 < b.toNat → exec (.readJournal p) s = .next (answer p .badField [] (taken p s)))
      ∧ (1 ≤ b.toNat → b.toNat ≤ 4 → ∃ u, exec (.readJournal p) s = .next u
          ∧ u.mail.replies.get p = some (replyBytes .ok (journalBody (unread u.journal.ring p)
              ((s.journal.ring.filter (fun r => r.owed.get p)).take b.toNat)))
          ∧ unread u.journal.ring p = unread s.journal.ring p - b.toNat
          ∧ (∀ q, q ≠ p → unread u.journal.ring q = unread s.journal.ring q)
          ∧ u.journal.subs = s.journal.subs ∧ u.journal.lost = s.journal.lost))
    ∧ hasRight .subscribe p = true
    ∧ (∀ v, Asked p (.subscribe v) s →
      (1023 < v.toNat → exec (.subscribe p) s = .next (answer p .badField [] (taken p s)))
      ∧ (v.toNat ≤ 1023 → exec (.subscribe p) s = .next (answer p .ok (b2 (s.journal.subs.get p).toNat)
          { taken p s with journal := { s.journal with subs := s.journal.subs.set p (v.extractLsb' 0 10) } })))
    ∧ (Asked p .journalStatus s → exec (.journalStatus p) s = .next (answer p .ok
        (b2 (s.journal.subs.get p).toNat ++ b2 (unread s.journal.ring p) ++ b1 (s.journal.lost.get p)
          ++ b2 s.journal.ring.length)
        { taken p s with journal := { s.journal with lost := s.journal.lost.set p 0 } }))

/-- A notice takes the value its report or its setting gives (R176, R177), and the port's ALERT line is worked out
(R178). READ_NOTICES and SET_NOTICE_MASK (R178 to R180): the latched notices are reported and cleared, masked or not,
the level notices stay, and each mask named takes its value. That a report is taken as an event of its own is log entry
15, and what the bits of CALLS_PENDING read as at a port without it is log entry 47. -/
def Obligations.Notices : Prop :=
  (∀ (p : Port) (n : Notice) (s : State), s.resetHeld = false →
      (∀ v before after, s.mail.notices = before ++ .level p n v :: after → (∀ y ∈ before, isLevel p n y = false) →
        exec (.noticeLevelReport p n) s = .next { s with
          mail := { s.mail with notices := before ++ after }
          notices := s.notices.set p { s.notices.get p with
            set := putBit (s.notices.get p).set n.num v
            alert := alertLine (putBit (s.notices.get p).set n.num v) (s.notices.get p).masked (s.notices.get p).master } })
      ∧ (∀ before after, s.mail.notices = before ++ .latched p n :: after → (∀ y ∈ before, isLatched p n y = false) →
        exec (.latchedNoticeSet p n) s = .next { s with
          mail := { s.mail with notices := before ++ after }
          notices := s.notices.set p { s.notices.get p with
            set := putBit (s.notices.get p).set n.num true
            alert := alertLine (putBit (s.notices.get p).set n.num true) (s.notices.get p).masked
              (s.notices.get p).master } })
      ∧ ((∀ y ∈ s.mail.notices, isLevel p n y = false) → exec (.noticeLevelReport p n) s = .next s)
      ∧ ((∀ y ∈ s.mail.notices, isLatched p n y = false) → exec (.latchedNoticeSet p n) s = .next s))
  ∧ (∀ (p : Port) (s : State),
      (Asked p .readNotices s → ∃ u, exec (.readNotices p) s = .next u
        ∧ u.mail.replies.get p = some (replyBytes .ok (noticesBody (s.notices.get p)))
        ∧ (∀ n : Notice, (u.notices.get p).set.getLsbD n.num
            = (!Notice.latched n && (s.notices.get p).set.getLsbD n.num))
        ∧ (u.notices.get p).masked = (s.notices.get p).masked ∧ (u.notices.get p).master = (s.notices.get p).master
        ∧ (u.notices.get p).alert = alertLine (u.notices.get p).set (u.notices.get p).masked (u.notices.get p).master)
      ∧ (∀ c v, Asked p (.setNoticeMask c v) s →
        (c.getLsbD 2 = true → p ≠ .dispatch → exec (.setNoticeMask p) s = .next (answer p .badField [] (taken p s)))
        ∧ (c.getLsbD 2 = false ∨ p = .dispatch → ∃ u, exec (.setNoticeMask p) s = .next u
            ∧ (∀ n : Notice, (u.notices.get p).masked.getLsbD n.num
                = if c.getLsbD n.num then v.getLsbD n.num else (s.notices.get p).masked.getLsbD n.num)
            ∧ (u.notices.get p).master = (if c.getLsbD 9 then v.getLsbD 9 else (s.notices.get p).master)
            ∧ (u.notices.get p).set = (s.notices.get p).set
            ∧ (u.notices.get p).alert = alertLine (u.notices.get p).set (u.notices.get p).masked (u.notices.get p).master
            ∧ u.mail.replies.get p = some (replyBytes .ok (masksBody (u.notices.get p))))))

/-! ## The Permit Table -/

/-- QUERY_ENTRY, SET_SIDE, SET_QUOTA and TABLE_STATUS at the table (R16, R17, R19). That SET_SIDE answers NO_ENTRY
before BAD_FIELD is log entry 32. Reply bytes that R193 leaves open follow log entry 7. -/
def Obligations.TableRequests : Prop :=
  ∀ (p : Port) (s : State),
    (∀ c, AskedAtTable p (.queryEntry c) s →
      ((∀ e, s.entry c = some e → e.inRemoval = true) →
        exec (.queryEntry p) s = .next (answer p .noEntry [] (takenTurn p s)))
      ∧ (∀ e, s.entry c = some e → e.inRemoval = false →
        exec (.queryEntry p) s = .next (answer p .ok (entryBody e) (takenTurn p s))))
    ∧ (∀ c b, AskedAtTable p (.setSide c b) s →
      ((∀ e, s.entry c = some e → e.inRemoval = true) →
        exec (.setSide p) s = .next (answer p .noEntry [] (takenTurn p s)))
      ∧ (∀ e, s.entry c = some e → e.inRemoval = false → 2 < b.toNat →
        exec (.setSide p) s = .next (answer p .badField [] (takenTurn p s)))
      ∧ (∀ e x, s.entry c = some e → e.inRemoval = false → Side.num x = b.toNat →
        ∃ u, exec (.setSide p) s = .next u ∧ u.entry c = some { e with side := x }
          ∧ (∀ d, d ≠ c → u.entry d = s.entry d) ∧ u.mail.replies.get p = some (replyBytes .ok [])))
    ∧ (∀ v, AskedAtTable p (.setQuota v) s →
      (2048 < v ∨ v < s.table.receptionCount →
        exec (.setQuota p) s = .next (answer p .badField [] (takenTurn p s)))
      ∧ (v ≤ 2048 → s.table.receptionCount ≤ v →
        exec (.setQuota p) s = .next (answer p .ok [] { takenTurn p s with table := { s.table with quota := v } })))
    ∧ (AskedAtTable p .tableStatus s → exec (.tableStatus p) s = .next (answer p .ok
        (b2 s.table.entries.length ++ b2 s.table.receptionCount ++ b2 s.table.quota
          ++ b1 (walkerNum s.table.walk)
          ++ [if s.table.waiting.isSome then 1 else 0]) (takenTurn p s)))

/-- INSERT_ENTRY (R8, R11): the refusals in their order, and the entry that is added, with one more RECEPTION entry
when RECEPTION wrote it and one more ref at its sponsor. That a sponsor field of 0 or 4,294,967,295 is NO_SPONSOR is
log entry 33. -/
def Obligations.EntryInserted : Prop :=
  ∀ (p : Port) (im : InsertImage) (s : State), AskedAtTable p (.insertEntry im) s →
    ∃ u, exec (.insertEntry p) s = .next u
      ∧ (p = .reception ∧ (Class.ofNum (field im.a 6 2) ≠ some .visitor ∨ im.a.getLsbD 0 = true) →
          u = answer p .rights [] (takenTurn p s))
      ∧ (¬(p = .reception ∧ (Class.ofNum (field im.a 6 2) ≠ some .visitor ∨ im.a.getLsbD 0 = true)) →
          (imageEntry p im = none → u = answer p .badField [] (takenTurn p s))
          ∧ ∀ e, imageEntry p im = some e →
            ((s.entry e.cred ≠ none ∨ ∃ d ∈ s.table.departed, d.cred = e.cred) →
              u = answer p .duplicate [] (takenTurn p s))
            ∧ (s.entry e.cred = none → (∀ d ∈ s.table.departed, d.cred ≠ e.cred) →
              (8192 ≤ s.table.entries.length → u = answer p .tableFull [] (takenTurn p s))
              ∧ (s.table.entries.length < 8192 →
                (p = .reception ∧ s.table.quota ≤ s.table.receptionCount →
                  u = answer p .quotaFull [] (takenTurn p s))
                ∧ (¬(p = .reception ∧ s.table.quota ≤ s.table.receptionCount) →
                  (∀ c, e.sponsor = some c → (∀ x, s.entry c = some x → x.inRemoval = true ∨ x.cls ≠ .staff) →
                    u = answer p .noSponsor [] (takenTurn p s))
                  ∧ (∀ c x, e.sponsor = some c → s.entry c = some x → x.inRemoval = false → x.cls = .staff →
                    255 ≤ x.refs → u = answer p .sponsorFull [] (takenTurn p s))
                  ∧ ((∀ c, e.sponsor = some c → ∃ x, s.entry c = some x ∧ x.inRemoval = false ∧ x.cls = .staff
                        ∧ x.refs < 255) →
                    u.entry e.cred = some e ∧ u.table.entries.length = s.table.entries.length + 1
                    ∧ u.table.receptionCount = s.table.receptionCount + (if p = .reception then 1 else 0)
                    ∧ (∀ c x, e.sponsor = some c → s.entry c = some x →
                        u.entry c = some { x with refs := x.refs + 1 })
                    ∧ (∀ c, c ≠ e.cred → e.sponsor ≠ some c → u.entry c = s.entry c)
                    ∧ u.mail.replies.get p = some (replyBytes .ok []))))))

/-- MODIFY_ENTRY (R8, R12, R13): the refusals in their order, the entry as it then stands, the WAIT that a changed
sponsor ends, and the withdraw option. An entry named as its own sponsor is NO_SPONSOR by log entry 10, and a
sponsor field of 0 or 4,294,967,295 by log entry 33. -/
def Obligations.EntryModified : Prop :=
  ∀ (p : Port) (im : ModifyImage) (s : State), AskedAtTable p (.modifyEntry im) s →
    ∃ u, exec (.modifyEntry p) s = .next u
      ∧ ((∀ e, s.entry im.cred = some e → e.inRemoval = true) → u = answer p .noEntry [] (takenTurn p s))
      ∧ ∀ e, s.entry im.cred = some e → e.inRemoval = false →
        (mayModify p e im = false → u = answer p .rights [] (takenTurn p s))
        ∧ (mayModify p e im = true → modified e im = none → u = answer p .badField [] (takenTurn p s))
        ∧ (∀ e', mayModify p e im = true → modified e im = some e' →
          (∀ c, e'.sponsor = some c → e.sponsor ≠ some c →
            (c = e.cred ∨ (∀ x, s.entry c = some x → x.inRemoval = true ∨ x.cls ≠ .staff) →
              u = answer p .noSponsor [] (takenTurn p s))
            ∧ (∀ x, c ≠ e.cred → s.entry c = some x → x.inRemoval = false → x.cls = .staff → 255 ≤ x.refs →
              u = answer p .sponsorFull [] (takenTurn p s)))
          ∧ ((∀ c, e'.sponsor = some c → e.sponsor ≠ some c →
                c ≠ e.cred ∧ ∃ x, s.entry c = some x ∧ x.inRemoval = false ∧ x.cls = .staff ∧ x.refs < 255) →
            (e.cls = .staff ∧ e'.cls ≠ .staff ∧ 0 < e.refs → u = answer p .sponsorInUse [] (takenTurn p s))
            ∧ (¬(e.cls = .staff ∧ e'.cls ≠ .staff ∧ 0 < e.refs) → e.sponsor ≠ some e.cred →
              u.entry e.cred = some { e' with
                claim := if e.sponsor ≠ e'.sponsor ∧ e.claim = some .wait then none else e'.claim }
              ∧ (e.sponsor = e'.sponsor → ∀ c, c ≠ e.cred → u.entry c = s.entry c)
              ∧ (∀ c x, e'.sponsor = some c → e.sponsor ≠ some c → s.entry c = some x →
                  u.entry c = some { x with refs := x.refs + 1 })
              ∧ (∀ c x, e.sponsor = some c → e'.sponsor ≠ some c → s.entry c = some x →
                  u.entry c = some { x with refs := x.refs - 1 })
              ∧ u.mail.escortEnds = s.mail.escortEnds
                  ++ (if e.sponsor ≠ e'.sponsor ∧ e.claim = some .wait then [.wait e.cred] else [])
              ∧ u.mail.withdrawals = s.mail.withdrawals
                  ++ (match im.withdraw, e.claim with | true, some (.window g) => [g] | _, _ => [])
              ∧ u.mail.replies.get p = some (replyBytes .ok
                  (match im.withdraw, e.claim with
                   | true, some (.window _) => [1] | true, _ => [0] | false, _ => [])))))

/-- REVOKE_ENTRY and PURGE (R9, R13, R14, R18, R20): an entry with refs 0 is removed at once, with its record; an entry
with refs, given force, and a purge ask for a walk, which starts with the walker IDLE and waits otherwise. The order of
REVOKE_ENTRY's refusals, which R14 does not rank, is log entry 32. -/
def Obligations.RevokeAndPurge : Prop :=
  ∀ (p : Port) (s : State),
    (∀ c w f, AskedAtTable p (.revokeEntry c w f) s → ∃ u, exec (.revokeEntry p) s = .next u
      ∧ ((∀ e, s.entry c = some e → e.inRemoval = true) → u = answer p .noEntry [] (takenTurn p s))
      ∧ ∀ e, s.entry c = some e → e.inRemoval = false →
        (p = .reception ∧ (e.issuer = .security ∨ f = true) → u = answer p .rights [] (takenTurn p s))
        ∧ (¬(p = .reception ∧ (e.issuer = .security ∨ f = true)) →
          (0 < e.refs → f = false → u = answer p .sponsorInUse [] (takenTurn p s))
          ∧ (0 < e.refs → f = true →
            (s.table.walk = none →
              u = { takenTurn p s with table := { s.table with walk := some (.forcedRevoke c w false [] 0 false) } })
            ∧ (s.table.walk ≠ none →
              u = { takenTurn p s with table := { s.table with waiting := some (.forcedRevoke c w) } }))
          ∧ (e.refs = 0 →
            u.entry c = none
            ∧ u.table.receptionCount = (if e.issuer = .reception then s.table.receptionCount - 1
                else s.table.receptionCount)
            ∧ (∀ g, e.claim = some (.window g) → u.table.departed = s.table.departed ++ [⟨g, e.cred⟩])
            ∧ (∀ d x, e.sponsor = some d → d ≠ c → s.entry d = some x →
                u.entry d = some { x with refs := x.refs - 1 })
            ∧ (∀ d, d ≠ c → e.sponsor ≠ some d → u.entry d = s.entry d)
            ∧ u.mail.escortEnds = s.mail.escortEnds
                ++ (if e.claim = some .wait then [.wait c, .credit c] else [.credit c])
            ∧ u.mail.records = s.mail.records ++ [(.table, { time := s.stamp, code := .table .revoked, cred := some c })]
            ∧ u.mail.withdrawals = s.mail.withdrawals
                ++ (match w, e.claim with | true, some (.window g) => [g] | _, _ => [])
            ∧ u.mail.replies.get p = some (replyBytes .ok
                (match w, e.claim with | true, some (.window _) => [1] | true, _ => [0] | false, _ => [])))))
    ∧ (∀ cl is, AskedAtTable p (.purge cl is) s →
      (cl.toNat = 0 ∨ 7 < cl.toNat ∨ is.toNat = 0 ∨ 3 < is.toNat →
        exec (.purge p) s = .next (answer p .badField [] (takenTurn p s)))
      ∧ (1 ≤ cl.toNat → cl.toNat ≤ 7 → 1 ≤ is.toNat → is.toNat ≤ 3 →
        (s.table.walk = none → exec (.purge p) s = .next { takenTurn p s with
          table := { s.table with
            walk := some (.purge (cl.extractLsb' 0 3) (is.extractLsb' 0 2) .first (presentCreds s) 0) } })
        ∧ (s.table.walk ≠ none → exec (.purge p) s = .next { takenTurn p s with
          table := { s.table with waiting := some (.purge (cl.extractLsb' 0 3) (is.extractLsb' 0 2)) } })))

/-- The steps of a purge (R18, R20): the first pass removes and counts a match with refs 0 and marks another; the
second suspends the entries whose sponsor is marked; the final step removes the marked entries, replies with the number
removed, and lets a waiting walk start. The entry visited is the row's operand, and the second pass visits the entries
present when it begins (log entry 6). -/
def Obligations.PurgeSteps : Prop :=
  ∀ (s : State), WalkerTurn s →
    (∀ cl is todo n c, s.table.walk = some (.purge cl is .first todo n) → c ∈ todo →
      ∃ u, exec (.purgeFirstPassStep c) s = .next u ∧ u.arbiter.next = .safety
        ∧ u.table.walk = some (if todo.filter (· != c) = [] then
              .purge cl is (if presentCreds u = [] then .final else .second) (presentCreds u) (countAfter s u c n)
            else .purge cl is .first (todo.filter (· != c)) (countAfter s u c n))
        ∧ (∀ e, s.entry c = some e → hasClass cl e.cls = true → hasIssuer is e.issuer = true → e.refs = 0 →
            u.entry c = none ∧ (todo.filter (· != c) ≠ [] →
              u.table.walk = some (.purge cl is .first (todo.filter (· != c)) (n + 1))))
        ∧ (∀ e, s.entry c = some e → hasClass cl e.cls = true → hasIssuer is e.issuer = true → 0 < e.refs →
            u.entry c = some { e with inRemoval := true } ∧ ∀ d, d ≠ c → u.entry d = s.entry d)
        ∧ (∀ e, s.entry c = some e → (hasClass cl e.cls && hasIssuer is e.issuer) = false →
            u.table.entries = s.table.entries)
        ∧ (s.entry c = none → u.table.entries = s.table.entries))
    ∧ (∀ cl is n c, s.table.walk = some (.purge cl is .first [] n) →
      ∃ u, exec (.purgeFirstPassStep c) s = .next u ∧ u.table = { s.table with
          walk := some (.purge cl is (if presentCreds s = [] then .final else .second) (presentCreds s) n) })
    ∧ (∀ cl is todo n c, s.table.walk = some (.purge cl is .second todo n) → c ∈ todo →
      ∃ u, exec (.purgeSecondPassStep c) s = .next u ∧ u.arbiter.next = .safety
        ∧ u.table.walk = some (if todo.filter (· != c) = [] then .purge cl is .final [] n
            else .purge cl is .second (todo.filter (· != c)) n)
        ∧ (∀ e d x, s.entry c = some e → e.sponsor = some d → d ≠ c → s.entry d = some x → x.inRemoval = true →
            u.entry c = some { e with
              sponsor := none, suspended := true, claim := if e.claim = some .wait then none else e.claim }
            ∧ u.entry d = some { x with refs := x.refs - 1 }
            ∧ u.mail.escortEnds = s.mail.escortEnds ++ (if e.claim = some .wait then [.wait c] else []))
        ∧ ((∀ e, s.entry c = some e → ∀ d, e.sponsor = some d → ∀ x, s.entry d = some x → x.inRemoval = false) →
            u.table.entries = s.table.entries))
    ∧ (∀ cl is n c, s.table.walk = some (.purge cl is .second [] n) →
      ∃ u, exec (.purgeSecondPassStep c) s = .next u ∧ u.arbiter.next = .safety
        ∧ u.table = { s.table with walk := some (.purge cl is .final [] n) })
    ∧ (∀ cl is todo n c, s.table.walk = some (.purge cl is .final todo n) →
      ∃ u, exec .purgeFinalStep s = .next u ∧ u.arbiter.next = .safety ∧ WalkEnded s u
        ∧ (∀ e, s.entry c = some e → e.inRemoval = true → u.entry c = none)
        ∧ u.mail.replies.security = some (replyBytes .ok
            (b2 (n + (s.table.entries.filter (fun e => e.inRemoval)).length)))
        ∧ u.mail.records = s.mail.records ++ [(.table,
            { time := s.stamp, code := .table .purged
              detail := .items {} (b2 (n + (s.table.entries.filter (fun e => e.inRemoval)).length)) })])

/-- The steps of a forced revoke (R15): the start marks the sponsor and ends its credit, each referring entry loses its
sponsor and is suspended, and the end removes the sponsor and replies with the number of entries handled; a walk that
ends lets a waiting walk start (R20). The entry visited is the row's operand (log entry 6), and the order of the
reply's items is log entry 7. -/
def Obligations.ForcedRevokeSteps : Prop :=
  ∀ (s : State), WalkerTurn s →
    (∀ c w todo n sent, s.table.walk = some (.forcedRevoke c w false todo n sent) →
      ∃ u, exec .forcedRevokeStart s = .next u ∧ u.arbiter.next = .safety
        ∧ ((∀ e, s.entry c = some e → e.inRemoval = true) →
            u.table.entries = s.table.entries ∧ WalkEnded s u
            ∧ (s.table.waiting = none → u.table = { s.table with walk := none })
            ∧ u.mail.replies.security = some (replyBytes .noEntry []))
        ∧ (∀ e, s.entry c = some e → e.inRemoval = false → e.refs = 0 → u.entry c = none ∧ WalkEnded s u)
        ∧ (∀ e, s.entry c = some e → e.inRemoval = false → 0 < e.refs →
            u.entry c = some { e with inRemoval := true } ∧ (∀ d, d ≠ c → u.entry d = s.entry d)
            ∧ u.mail.escortEnds = s.mail.escortEnds ++ [.credit c]
            ∧ u.mail.withdrawals = s.mail.withdrawals
                ++ (match w, e.claim with | true, some (.window g) => [g] | _, _ => [])
            ∧ u.table.walk = some (.forcedRevoke c w true (presentCreds s) 0
                (match w, e.claim with | true, some (.window _) => true | _, _ => false))))
    ∧ (∀ r w todo n sent c, s.table.walk = some (.forcedRevoke r w true todo n sent) → c ∈ todo →
      ∃ u, exec (.forcedRevokeStep c) s = .next u ∧ u.arbiter.next = .safety
        ∧ (∀ e x, s.entry c = some e → e.sponsor = some r → r ≠ c → s.entry r = some x →
            u.entry c = some { e with
              sponsor := none, suspended := true, claim := if e.claim = some .wait then none else e.claim }
            ∧ u.entry r = some { x with refs := x.refs - 1 }
            ∧ u.mail.escortEnds = s.mail.escortEnds ++ (if e.claim = some .wait then [.wait c] else [])
            ∧ u.table.walk = some (.forcedRevoke r w true (todo.filter (· != c)) (n + 1) sent))
        ∧ ((∀ e, s.entry c = some e → e.sponsor ≠ some r) →
            u.table = { s.table with walk := some (.forcedRevoke r w true (todo.filter (· != c)) n sent) }))
    ∧ (∀ r w n sent, s.table.walk = some (.forcedRevoke r w true [] n sent) →
      ∃ u, exec .forcedRevokeEnd s = .next u ∧ u.arbiter.next = .safety ∧ u.entry r = none ∧ WalkEnded s u
        ∧ u.mail.replies.security = some (replyBytes .ok (b1 n ++ (if w then [if sent then 1 else 0] else []))))

/-- A step of the sweep (R21), with its count, its record at the end and the waiting walk that then starts (R20), the
amnesty (R22), a passage posting (R23, R24) and an escort claim release (R7). The entry a sweep step visits is the
row's operand (log entry 6). -/
def Obligations.TableEvents : Prop :=
  ∀ (s : State), s.resetHeld = false →
    (∀ todo n c, hasTurn s .walker = true → s.table.walk = some (.sweep todo n) → c ∈ todo →
      ∃ u, exec (.sweepStep c) s = .next u ∧ u.arbiter.next = .safety
        ∧ (∀ e v, s.entry c = some e → e.issuer = .reception → e.validUntil = some v → v.toNat < s.clock.secs.toNat →
            e.claim = none → e.refs = 0 → u.entry c = none)
        ∧ (∀ e, s.entry c = some e → e.issuer = .security ∨ e.validUntil = none ∨ e.claim ≠ none ∨ e.refs ≠ 0
              ∨ (∃ v, e.validUntil = some v ∧ s.clock.secs.toNat ≤ v.toNat) →
            u.table.entries = s.table.entries)
        ∧ (todo.filter (· != c) ≠ [] →
            u.table.walk = some (.sweep (todo.filter (· != c)) (countAfter s u c n))
            ∧ u.table.waiting = s.table.waiting ∧ u.mail.records = s.mail.records)
        ∧ (todo.filter (· != c) = [] → WalkEnded s u
            ∧ u.mail.records = s.mail.records ++ (if countAfter s u c n = 0 then [] else
                [(.table, { time := s.stamp, code := .table .swept
                            detail := .items {} (b2 (countAfter s u c n)) })])))
    ∧ (∀ n c, hasTurn s .walker = true → s.table.walk = some (.sweep [] n) →
      ∃ u, exec (.sweepStep c) s = .next u ∧ u.arbiter.next = .safety ∧ u.table.entries = s.table.entries
        ∧ WalkEnded s u
        ∧ u.mail.records = s.mail.records ++ (if n = 0 then [] else
            [(.table, { time := s.stamp, code := .table .swept, detail := .items {} (b2 n) })]))
    ∧ (s.arbiter.amnesty = true → hasTurn s .safety = true → exec .amnesty s = .next { s with
        arbiter := { s.arbiter with amnesty := false, next := .security }
        table := { s.table with entries := s.table.entries.map (fun e => { e with side := .unknown }) }
        mail := { s.mail with amnestyDone := s.mail.amnestyDone + 1 } })
    ∧ (∀ x rest, s.arbiter.first = .posting x :: rest → ∃ u, exec .passagePosting s = .next u
        ∧ u.arbiter = { s.arbiter with first := rest }
        ∧ (∀ d, d ≠ x.cred → u.entry d = s.entry d)
        ∧ (∀ e, s.entry x.cred = some e →
            u.mail.results = s.mail.results ++ [⟨x.tag, false, some e.cls, e.refs⟩]
            ∧ (e.claim ≠ some (.window x.tag) → u.entry x.cred = some e)
            ∧ (e.claim = some (.window x.tag) → x.outcome ≠ .passed → u.entry x.cred = some { e with claim := none })
            ∧ (e.claim = some (.window x.tag) → x.outcome = .passed → x.dir = .entry →
                u.entry x.cred = some { e with
                  claim := none, side := .inside, uses := e.uses.map (fun n => n - 1)
                  last := some ⟨s.stamp, x.tag.lane, .entry⟩ })
            ∧ (e.claim = some (.window x.tag) → x.outcome = .passed → x.dir = .exit →
                u.entry x.cred = some { e with
                  claim := none, side := .outside, last := some ⟨s.stamp, x.tag.lane, .exit⟩ }))
        ∧ (s.entry x.cred = none →
            u.table = { s.table with departed := s.table.departed.filter (fun d => d.tag != x.tag) }
            ∧ u.mail.results = s.mail.results ++ [⟨x.tag, true, none, 0⟩]))
    ∧ (∀ v rest, s.arbiter.first = .claimRelease v :: rest → ∃ u, exec .escortClaimRelease s = .next u
        ∧ u.arbiter = { s.arbiter with first := rest } ∧ (∀ d, d ≠ v → u.entry d = s.entry d)
        ∧ (∀ e, s.entry v = some e →
            u.entry v = some { e with claim := if e.claim = some .wait then none else e.claim })
        ∧ (s.entry v = none → u.entry v = none))

/-! ## Presentations, verdicts and desk passes -/

/-- The verdict of a presentation lookup (R30, R32 to R39), check by check in their order. That ESCORT_BUSY keeps the
mark of a SOFT passback is log entry 23; that a WAIT of the visitor's own, which the table has ended, takes no room on
the list is log entry 31. -/
def Obligations.LookupVerdicts : Prop :=
  ∀ (s : State) (l : Lane) (p : Presentation),
    (laneAccepts s l p.dir = false →
      lookupVerdict s l p = if (s.lane l).state = .free then .free else .deny none .laneDirection false)
    ∧ (laneAccepts s l p.dir = true → s.entry p.cred = none →
      lookupVerdict s l p = .deny none .unknownCredential false)
    ∧ ∀ e, laneAccepts s l p.dir = true → s.entry p.cred = some e →
      (∀ t, e.claim = some (.window t) →
        lookupVerdict s l p = if t.lane = l then .repeatWindow e t else .deny (some e) .inUse false)
      ∧ (∀ v sp m st ph, e.claim = some .wait → s.waitOf e.cred = some (.wait v sp m st ph) →
        lookupVerdict s l p
          = if m = l then .repeatWait e else if p.dir = .entry then .moved e m else .deny (some e) .inUse false)
      ∧ (e.claim = some .wait → s.waitOf e.cred = none → lookupVerdict s l p = .deny (some e) .inUse false)
      ∧ (e.claim = none →
        (∀ c x, e.sponsor = some c → s.entry c = some x → x.inRemoval = true →
          lookupVerdict s l p = .deny (some e) .suspended false)
        ∧ (e.suspended = true ∨ e.inRemoval = true → lookupVerdict s l p = .deny (some e) .suspended false)
        ∧ (treatedSuspended s e = false →
          (hasMedium e.media p.medium = false → lookupVerdict s l p = .deny (some e) .media false)
          ∧ (hasMedium e.media p.medium = true →
            (hasLane e.lanes l = false → lookupVerdict s l p = .deny (some e) .laneNotPermitted false)
            ∧ (hasLane e.lanes l = true →
              (e.directions.permits p.dir = false → lookupVerdict s l p = .deny (some e) .direction false)
              ∧ (e.directions.permits p.dir = true →
                (e.validFrom ≠ none ∨ e.validUntil ≠ none → s.clock.set = false →
                  lookupVerdict s l p = .deny (some e) .clockUnset false)
                ∧ (∀ f, e.validFrom = some f → s.clock.set = true → s.clock.secs.toNat < f.toNat →
                  lookupVerdict s l p = .deny (some e) .notYet false)
                ∧ (∀ x, e.validUntil = some x → (∀ f, e.validFrom = some f → f.toNat ≤ s.clock.secs.toNat) →
                  s.clock.set = true → x.toNat < s.clock.secs.toNat →
                  lookupVerdict s l p = .deny (some e) .expired false)
                ∧ (e.validFrom = none ∧ e.validUntil = none ∨ s.clock.set = true
                    ∧ (∀ f, e.validFrom = some f → f.toNat ≤ s.clock.secs.toNat)
                    ∧ (∀ x, e.validUntil = some x → s.clock.secs.toNat ≤ x.toNat) →
                  (p.dir = .exit →
                    (e.side ≠ .outside ∨ e.passback = .none → lookupVerdict s l p = .grant e false)
                    ∧ (e.side = .outside → e.passback = .strict →
                      lookupVerdict s l p = .deny (some e) .passback false)
                    ∧ (e.side = .outside → e.passback = .soft → lookupVerdict s l p = .grant e true))
                  ∧ (p.dir = .entry →
                    (e.uses = some 0 → lookupVerdict s l p = .deny (some e) .usedUp false)
                    ∧ (e.uses ≠ some 0 → e.responder = false →
                      (s.safety.lockdown = true → lookupVerdict s l p = .deny (some e) .lockdown false)
                      ∧ (s.safety.lockdown = false → governorRefuses s.occupancy.activeAction e.cls = true →
                        lookupVerdict s l p = .deny (some e) .governor false))
                    ∧ (e.uses ≠ some 0 →
                      e.responder = true ∨ s.safety.lockdown = false
                        ∧ governorRefuses s.occupancy.activeAction e.cls = false →
                      (e.side = .inside → e.passback = .strict →
                        lookupVerdict s l p = .deny (some e) .passback false)
                      ∧ (∀ mark, (mark = true ↔ e.side = .inside ∧ e.passback = .soft) →
                        e.side ≠ .inside ∨ e.passback ≠ .strict →
                        (e.cls ≠ .visitor ∨ e.sponsor = none → lookupVerdict s l p = .grant e mark)
                        ∧ (∀ c, e.cls = .visitor → e.sponsor = some c →
                          (s.hasCredit c = true → lookupVerdict s l p = .grant e mark)
                          ∧ (s.hasCredit c = false →
                            (s.escort.list.filter (fun r => !isWaitOf e.cred r)).length < 16 →
                            lookupVerdict s l p = .await e mark)
                          ∧ (s.hasCredit c = false →
                            16 ≤ (s.escort.list.filter (fun r => !isWaitOf e.cred r)).length →
                            lookupVerdict s l p = .deny (some e) .escortBusy mark)))))))))))

/-- A window as its creation leaves it (R5, R40, R50, R54, R101): appended with the lane's next serial, its entry's
claim set to its tag, and its CALL posted, not wanted, or lost to a full queue. -/
def Obligations.WindowCreated : Prop :=
  ∀ (l : Lane) (e : Entry) (d : Direction) (o : Origin) (mark : Bool) (s : State),
    s.entry e.cred = some e → (s.lane l).state.inService = true →
    ∃ w, ((createWindow l e d o mark s).lane l).windows = (s.lane l).windows ++ [w]
      ∧ w.tag = ⟨l, (s.lane l).nextSerial⟩ ∧ w.cred = e.cred ∧ w.cls = e.cls ∧ w.dir = d ∧ w.origin = o
      ∧ w.state = .queued ∧ w.passback = mark ∧ w.created = s.stamp ∧ w.retreats = 0 ∧ w.outcome = none
      ∧ ((createWindow l e d o mark s).lane l).nextSerial = (s.lane l).nextSerial + 1
      ∧ ((createWindow l e d o mark s).lane l).state = .serving
      ∧ (createWindow l e d o mark s).entry e.cred = some { e with claim := some (.window w.tag) }
      ∧ (s.dispatch.dispatch = false ∨ d = .exit ∨ e.floor = none →
          w.call = .none ∧ (createWindow l e d o mark s).dispatch = s.dispatch)
      ∧ (∀ f, s.dispatch.dispatch = true → d = .entry → e.floor = some f →
          (s.dispatch.queue.length < 32 → w.call = .posted
            ∧ w.callDue = some (s.time + s.dispatch.timeout * 1000)
            ∧ (createWindow l e d o mark s).dispatch.queue = s.dispatch.queue ++ [.call w.tag e.cred f s.stamp])
          ∧ (32 ≤ s.dispatch.queue.length → w.call = .notPosted
            ∧ (createWindow l e d o mark s).dispatch = { s.dispatch with loss := saturate s.dispatch.loss }))

/-- PRESENTATION_LOOKUP (R32, R41, R43): the decision slot returns to IDLE with its VERDICT record; a GRANT creates the
window and sets the claim; an AWAIT_SPONSOR puts a WAIT on the escort list, the visitor's only one (R39, R82; a WAIT
that the table ended and that still stood ends first, log entry 31); a BUSY or a DENY counts, at a lane whose counters
are not held out of service (R76, log entry 34). -/
def Obligations.PresentationLookedUp : Prop :=
  ∀ (l : Lane) (p : Presentation) (rest : List SecondOp) (s : State), s.resetHeld = false → s.arbiter.first = [] →
    s.arbiter.second = .lookup l :: rest → (s.lane l).decision = some p →
    ∃ u, exec .presentationLookup s = .next u ∧ (u.lane l).decision = none
      ∧ (Source.decision, { time := s.stamp, code := .verdict (lookupVerdict s l p).kind, lane := some l
                            tag := (lookupVerdict s l p).tag s l, cred := some p.cred
                            cls := (lookupVerdict s l p).entry.map (fun e => e.cls), dir := some p.dir
                            detail := (lookupVerdict s l p).detail }) ∈ u.mail.records
      ∧ (∀ e mark, lookupVerdict s l p = .grant e mark →
          (u.lane l).windows.length = (s.lane l).windows.length + 1
          ∧ u.entry e.cred = some { e with claim := some (.window ⟨l, (s.lane l).nextSerial⟩) })
      ∧ (∀ e mark, lookupVerdict s l p = .await e mark →
          u.entry e.cred = some { e with claim := some .wait }
          ∧ u.escort.list.filter (isWaitOf e.cred) = [.wait e.cred (e.sponsor.getD 0) l s.time .waiting])
      ∧ ((lookupVerdict s l p).kind ≠ .grant → (u.lane l).windows.length = (s.lane l).windows.length)
      ∧ (u.lane l).counters.denial = if (lookupVerdict s l p).denies = true ∧ (s.lane l).state ≠ .masked
            ∧ (s.lane l).state ≠ .isolated then saturate (s.lane l).counters.denial
          else (s.lane l).counters.denial

/-- DESK_PASS at its lane (R45, R46): a place held for its lookup, a reservation in a full lane, or a refusal. The
records of a refused desk pass are log entry 17, and the numbers of the directions are log entry 7. -/
def Obligations.DeskPassAsked : Prop :=
  ∀ (p : Port) (c : Cred) (lane dir : Byte) (s : State), Asked p (.deskPass c lane dir) s →
    (7 < lane.toNat ∨ 1 < dir.toNat ∨ c = 0 ∨ c = 0xFFFFFFFF →
      exec (.deskPass p) s = .next (answer p .badField [] (taken p s)))
    ∧ ∀ l d, l.num = lane.toNat → Direction.num d = dir.toNat → c ≠ 0 → c ≠ 0xFFFFFFFF →
      ((s.lane l).state.inService = false →
        exec (.deskPass p) s = .next (answer p .laneState [BitVec.ofNat 8 (s.lane l).state.num] (taken p s)))
      ∧ ((s.lane l).state.inService = true → modeEnables s l d = false →
        ∃ u, exec (.deskPass p) s = .next u ∧ u.mail.replies.get p = some (replyBytes .denied [0])
          ∧ u.mail.records = s.mail.records ++ [(.decision,
              { time := s.stamp, code := .verdict .deny, lane := some l, cred := some c, dir := some d
                detail := .items { deskPass := true } [0, BitVec.ofNat 8 p.num] })])
      ∧ ((s.lane l).state.inService = true → modeEnables s l d = true →
        (0 < freePlaces s l → exec (.deskPass p) s = .next { taken p s with
          arbiter := { s.arbiter with desk := s.arbiter.desk.set p (some ⟨c, l, d, false⟩) } })
        ∧ (freePlaces s l = 0 → (s.lane l).reservation ≠ none →
          exec (.deskPass p) s = .next (answer p .laneReserved [] (taken p s)))
        ∧ (freePlaces s l = 0 → (s.lane l).reservation = none →
          exec (.deskPass p) s = .next
            ((taken p s).onLane l (fun u => { u with reservation := some ⟨p, c, d, s.time⟩ }))))

/-- A desk pass's lookup at the table (R45): LANE_STATE, DENIED with its reason, or OK with the tag of the window
created and the passback mark; the WAIT of a holder who is granted ends in the lookup itself (R90, log entry 17). A
reservation that has waited 30 s is answered TIMEOUT (R47). -/
def Obligations.DeskPassLookedUp : Prop :=
  ∀ (s : State), s.resetHeld = false →
    (∀ p d, s.arbiter.desk.get p = some d → portTurn s p = true → ∃ u, exec (.deskPassLookup p) s = .next u
      ∧ (∀ st, deskVerdict s d = .laneState st →
          u.mail.replies.get p = some (replyBytes .laneState [BitVec.ofNat 8 st.num]))
      ∧ (∀ e r, deskVerdict s d = .deny e r →
          u.mail.replies.get p = some (replyBytes .denied [BitVec.ofNat 8 r.num]))
      ∧ (∀ e mark, deskVerdict s d = .grant e mark →
          u.mail.replies.get p = some (replyBytes .ok
            [BitVec.ofNat 8 d.lane.num, (s.lane d.lane).nextSerial, if mark then 1 else 0])
          ∧ (u.lane d.lane).windows.length = (s.lane d.lane).windows.length + 1
          ∧ u.entry e.cred = some { e with claim := some (.window ⟨d.lane, (s.lane d.lane).nextSerial⟩) }
          ∧ u.waitOf e.cred = none))
    ∧ (∀ l r, (s.lane l).reservation = some r →
      (r.made + 30000 ≤ s.time → exec (.reservationHoldExpiry l) s = .next
        (handOver (.sequencer l) { time := s.stamp, code := .lane .reservationEnded, lane := some l
                                   detail := .items {} [18] }
          (answer r.port .timeout [] (s.onLane l (fun u => { u with reservation := none })))))
      ∧ (s.time < r.made + 30000 → exec (.reservationHoldExpiry l) s = .next s))
    ∧ (∀ l, (s.lane l).reservation = none → exec (.reservationHoldExpiry l) s = .next s)

/-! ## Lane requests -/

/-- SET_LANE and SET_BANK_MODE (R51, R52): the settings take their values, and each window before TRANSIT of a direction
that the lane's mode no longer enables goes to CLOSING as WITHDRAWN, its posting claimed. -/
def Obligations.ModesSet : Prop :=
  ∀ (p : Port) (s : State),
    (∀ b c l, Asked p (.setLane b c) s → l.num = b.toNat →
      (laneSettings (s.lane l).settings c = none →
        exec (.setLane p) s = .next (answer p .badField [] (taken p s)))
      ∧ (∀ x, laneSettings (s.lane l).settings c = some x → ∃ u, exec (.setLane p) s = .next u
          ∧ (u.lane l).settings = x ∧ u.bank = s.bank
          ∧ (∀ m, m ≠ l → u.lane m = s.lane m)
          ∧ (∀ d w, (effectiveMode s l).enables d = true → (effectiveMode u l).enables d = false →
              w ∈ (s.lane l).windows → w.dir = d → w.state.beforeTransit = true →
              .posting ⟨w.tag, w.cred, w.dir, .withdrawn⟩ ∈ u.arbiter.first
              ∧ ∃ v ∈ (u.lane l).windows, v.tag = w.tag ∧ v.state = .closing ∧ v.outcome = some .withdrawn)))
    ∧ (∀ b, Asked p (.setBankMode b) s →
      (3 < b.toNat → exec (.setBankMode p) s = .next (answer p .badField [] (taken p s)))
      ∧ (∀ m, Mode.num m = b.toNat → ∃ u, exec (.setBankMode p) s = .next u
          ∧ u.bank = { s.bank with mode := m }
          ∧ (∀ l, (u.lane l).settings = (s.lane l).settings)
          ∧ (∀ l, (s.lane l).settings.source = .own → u.lane l = s.lane l)
          ∧ (∀ l d w, (s.lane l).settings.source = .bank → s.bank.mode.enables d = true → m.enables d = false →
              w ∈ (s.lane l).windows → w.dir = d → w.state.beforeTransit = true →
              .posting ⟨w.tag, w.cred, w.dir, .withdrawn⟩ ∈ u.arbiter.first
              ∧ ∃ v ∈ (u.lane l).windows, v.tag = w.tag ∧ v.state = .closing ∧ v.outcome = some .withdrawn)))

/-- SET_LANE_MASK, ISOLATE_LANE, RESUME_LANE and RESTART_LANE (R53, R77, R78, R158): the lane's new state, and every
window of a lane taken out of service ends ABORTED, its posting claimed. The empty body of LANE_STATE is log entry 29.
-/
def Obligations.LanesInAndOut : Prop :=
  ∀ (p : Port) (s : State),
    (∀ b, Asked p (.setLaneMask b) s → ∃ u, exec (.setLaneMask p) s = .next u ∧ u.bank = { s.bank with mask := b }
      ∧ ∀ l, (hasLane b l = hasLane s.bank.mask l → u.lane l = s.lane l ∧ u.line l = s.line l)
        ∧ (hasLane b l = true → hasLane s.bank.mask l = false → (u.lane l).state = .masked
          ∧ (∀ x, (u.line l).slot x = SlotRec.off)
          ∧ ∀ w ∈ (s.lane l).windows, w.state ≠ .closing →
              .posting ⟨w.tag, w.cred, w.dir, .aborted⟩ ∈ u.arbiter.first)
        ∧ (hasLane b l = false → hasLane s.bank.mask l = true → (u.lane l).state = .enumerating
          ∧ ∀ x, (u.line l).slot x = SlotRec.reset))
    ∧ (∀ b l, l.num = b.toNat →
      (Asked p (.isolateLane b) s →
        ((s.lane l).state = .masked ∨ (s.lane l).state = .isolated →
          exec (.isolateLane p) s = .next (answer p .laneState [] (taken p s)))
        ∧ ((s.lane l).state ≠ .masked → (s.lane l).state ≠ .isolated → ∃ u, exec (.isolateLane p) s = .next u
          ∧ (u.lane l).state = .isolated ∧ (u.line l).await = none
          ∧ ∀ w ∈ (s.lane l).windows, w.state ≠ .closing →
              .posting ⟨w.tag, w.cred, w.dir, .aborted⟩ ∈ u.arbiter.first))
      ∧ (Asked p (.resumeLane b) s →
        ((s.lane l).state ≠ .isolated → exec (.resumeLane p) s = .next (answer p .laneState [] (taken p s)))
        ∧ ((s.lane l).state = .isolated → ∃ u, exec (.resumeLane p) s = .next u ∧ (u.lane l).state = .enumerating
          ∧ ∀ x, ((s.line l).slot x).status ≠ .jabber → (u.line l).slot x = SlotRec.reset))
      ∧ (Asked p (.restartLane b) s →
        ((s.lane l).state = .masked ∨ (s.lane l).state = .isolated →
          exec (.restartLane p) s = .next (answer p .laneState [] (taken p s)))
        ∧ ((s.lane l).state ≠ .masked → (s.lane l).state ≠ .isolated → ∃ u, exec (.restartLane p) s = .next u
          ∧ (u.lane l).state = .enumerating
          ∧ (∀ x, (u.line l).slot x
              = if ((s.line l).slot x).status = .jabber then (s.line l).slot x else SlotRec.reset)
          ∧ ∀ w ∈ (s.lane l).windows, w.state ≠ .closing →
              .posting ⟨w.tag, w.cred, w.dir, .aborted⟩ ∈ u.arbiter.first)))

/-- A request for a lane above 7 is answered BAD_FIELD and changes nothing else (R51, R69, R76 to R79); and
ALARM_RESET, READ_LANE_COUNTERS and LANE_STATUS at their lane (R69, R76, R79). The empty body of LANE_STATE is log
entry 29; reply bytes that R193 leaves open follow log entry 7. -/
def Obligations.LaneRequests : Prop :=
  ∀ (p : Port) (b : Byte) (s : State),
    (7 < b.toNat →
        (∀ c, Asked p (.setLane b c) s → exec (.setLane p) s = .next (answer p .badField [] (taken p s)))
      ∧ (Asked p (.isolateLane b) s → exec (.isolateLane p) s = .next (answer p .badField [] (taken p s)))
      ∧ (Asked p (.resumeLane b) s → exec (.resumeLane p) s = .next (answer p .badField [] (taken p s)))
      ∧ (Asked p (.restartLane b) s → exec (.restartLane p) s = .next (answer p .badField [] (taken p s)))
      ∧ (Asked p (.alarmReset b) s → exec (.alarmReset p) s = .next (answer p .badField [] (taken p s)))
      ∧ (Asked p (.readLaneCounters b) s → exec (.readLaneCounters p) s = .next (answer p .badField [] (taken p s)))
      ∧ (Asked p (.laneStatus b) s → exec (.laneStatus p) s = .next (answer p .badField [] (taken p s))))
    ∧ ∀ l : Lane, l.num = b.toNat →
        (Asked p (.alarmReset b) s →
        ((s.lane l).state ≠ .alarm → exec (.alarmReset p) s = .next (answer p .laneState [] (taken p s)))
        ∧ ((s.lane l).state = .alarm →
          ((s.lane l).windows ≠ [] ∨ (s.lane l).zones.empty = false ∨ (s.lane l).obstruction = true →
            exec (.alarmReset p) s = .next (answer p .laneOccupied [] (taken p s)))
          ∧ ((s.lane l).windows = [] → (s.lane l).zones.empty = true → (s.lane l).obstruction = false →
            ∃ u, exec (.alarmReset p) s = .next u ∧ u.mail.replies.get p = some (replyBytes .ok [])
              ∧ ((s.lane l).awaitingReset = true → (u.lane l).state = .ready)
              ∧ ((s.lane l).awaitingReset = false → (u.lane l).state = .alarm ∧ (u.lane l).acknowledged = true))))
      ∧ (Asked p (.readLaneCounters b) s → exec (.readLaneCounters p) s = .next
          ((answer p .ok
              (b1 (s.lane l).counters.denial ++ b1 (s.lane l).counters.tailgate ++ b1 (s.lane l).counters.intrusion
                ++ b1 (s.lane l).counters.loiter ++ b1 (s.lane l).counters.obstruct ++ b1 (s.lane l).counters.lineError)
              (taken p s)).onLane l (fun u => { u with counters := ⟨0, 0, 0, 0, 0, 0⟩ })))
      ∧ (Asked p (.laneStatus b) s →
        ((s.lane l).state = .masked → exec (.laneStatus p) s = .next (answer p .ok [0] (taken p s)))
        ∧ ((s.lane l).state ≠ .masked → exec (.laneStatus p) s = .next (answer p .ok (laneBody s l) (taken p s))))

/-! ## Escort unit -/

/-- SET_ESCORT and ESCORT_STATUS (R95, R96): the interval within 10 to 600 s applies at once, so that no credit and no
WAIT outside RELEASING whose age has reached it stays on the list, each such WAIT with its escort claim release and its
ESCORT_TIMEOUT record (R83), and the other records stay; the status gives up to four records from a position.
Reply bytes that R193 leaves open follow log entry 7. -/
def Obligations.EscortRequests : Prop :=
  ∀ (p : Port) (s : State),
    (∀ v, Asked p (.setEscort v) s →
      (v < 10 ∨ 600 < v → exec (.setEscort p) s = .next (answer p .badField [] (taken p s)))
      ∧ (10 ≤ v → v ≤ 600 → ∃ u, exec (.setEscort p) s = .next u ∧ u.escort.interval = v
          ∧ u.mail.replies.get p = some (replyBytes .ok [])
          ∧ (∀ c l st, s.time < st + v * 1000 → .credit c l st ∈ s.escort.list →
              (∀ m t, .credit c m t ∈ s.escort.list → t = st) → .credit c l st ∈ u.escort.list)
          ∧ (∀ c l st, .credit c l st ∈ u.escort.list → s.time < st + v * 1000)
          ∧ (∀ x sp l st ph, .wait x sp l st ph ∈ u.escort.list → ph = .releasing ∨ s.time < st + v * 1000)
          ∧ (∀ x sp l st ph, .wait x sp l st ph ∈ s.escort.list → ph ≠ .releasing → st + v * 1000 ≤ s.time →
              .claimRelease x ∈ u.arbiter.first ∧ u.waitOf x = none
              ∧ (Source.escort, { time := s.stamp, code := .escort .escortTimeout, lane := some l, cred := some x
                                  detail := .cred sp }) ∈ u.mail.records)
          ∧ (∀ x sp l st ph, .wait x sp l st ph ∈ s.escort.list → ph = .releasing ∨ s.time < st + v * 1000 →
              (∀ sp' m t k, .wait x sp' m t k ∈ s.escort.list → sp' = sp ∧ m = l ∧ t = st ∧ k = ph) →
              ∃ k, .wait x sp l st k ∈ u.escort.list ∧ (k = ph ∨ ph = .releasePending ∧ k = .releasing))))
    ∧ (∀ b, Asked p (.escortStatus b) s →
      (15 < b.toNat → exec (.escortStatus p) s = .next (answer p .badField [] (taken p s)))
      ∧ (b.toNat ≤ 15 → exec (.escortStatus p) s = .next (answer p .ok
          (b2 s.escort.interval ++ b1 s.escort.list.length ++ b1 ((s.escort.list.drop b.toNat).take 4).length
            ++ ((s.escort.list.drop b.toNat).take 4).flatMap (escortBytes s.time)) (taken p s))))

/-- The records of the escort list in time (R83 to R85, R91 to R94): expiries; a sponsor's passage, which renews
the sponsor's credit or makes one where the list has room, at the end of the list, leaves every other credit, and releases
its waiting visitors with WAIT requested at their lanes (log entry 22), with all the records it makes; and the clearing of
the list by lockdown and egress. That a passage taken while the egress state is EGRESS still renews a credit and records a
full list, and that one which would make a credit there makes none and has no record of one, is log entry 38. -/
def Obligations.EscortEvents : Prop :=
  ∀ (s : State), s.resetHeld = false →
    (∀ c v sp l st ph, s.waitOf c = some (.wait v sp l st ph) →
      (s.time < st + s.escort.interval * 1000 ∨ ph = .releasing → exec (.escortWaitExpiry c) s = .next s)
      ∧ (st + s.escort.interval * 1000 ≤ s.time → ph ≠ .releasing →
        ∃ u, exec (.escortWaitExpiry c) s = .next u ∧ u.waitOf c = none
          ∧ u.arbiter.first = s.arbiter.first ++ [.claimRelease c]
          ∧ u.mail.records = s.mail.records ++ [(.escort,
              { time := s.stamp, code := .escort .escortTimeout, lane := some l, cred := some c, detail := .cred sp })]))
    ∧ (∀ c, s.waitOf c = none → exec (.escortWaitExpiry c) s = .next s)
    ∧ (∀ c x l st, s.escort.list.find? (isCreditOf c) = some (.credit x l st) →
      (s.time < st + s.escort.interval * 1000 → exec (.creditExpiry c) s = .next s)
      ∧ (st + s.escort.interval * 1000 ≤ s.time → ∃ u, exec (.creditExpiry c) s = .next u ∧ u.hasCredit c = false
          ∧ u.mail.records = s.mail.records ++ [(.escort,
              { time := s.stamp, code := .escort .creditExpired, lane := some l, cred := some c })]))
    ∧ (∀ x before after, s.mail.sponsors = before ++ x :: after → (∀ y ∈ before, y.lane ≠ x.lane) →
      ∃ u, exec (.sponsorPassage x.lane) s = .next u ∧ u.mail.sponsors = before ++ after
        ∧ (x.dir = .exit ∨ x.gone = true ∨ x.refs = 0 →
            u.escort = s.escort ∧ u.mail.releases = s.mail.releases ∧ u.mail.records = s.mail.records)
        ∧ (x.dir = .entry → x.gone = false → 0 < x.refs →
          (u.hasCredit x.cred = true ↔ s.hasCredit x.cred = true ∨ s.safety.egress ≠ .egress ∧ s.escort.list.length < 16)
          ∧ (u.hasCredit x.cred = true → u.escort.list.getLast? = some (.credit x.cred x.lane s.time))
          ∧ (∀ c l st, c ≠ x.cred → (.credit c l st ∈ u.escort.list ↔ .credit c l st ∈ s.escort.list))
          ∧ u.mail.records = s.mail.records
              ++ (if s.hasCredit x.cred = true then [(.escort,
                    { time := s.stamp, code := .escort .creditRenewed, lane := some x.lane, cred := some x.cred })]
                  else if 16 ≤ s.escort.list.length then [(.escort,
                    { time := s.stamp, code := .escort .creditMade, lane := some x.lane, cred := some x.cred,
                      detail := .items { listFull := true } [] })]
                  else if s.safety.egress = .egress then []
                  else [(.escort,
                    { time := s.stamp, code := .escort .creditMade, lane := some x.lane, cred := some x.cred })])
              ++ s.escort.list.filterMap (fun r => match r with
                  | .wait v sp l _ .waiting => if sp = x.cred then some (.escort,
                      { time := s.stamp, code := .escort .releasePending, lane := some l, cred := some v,
                        detail := .cred sp }) else none
                  | _ => none)
          ∧ (∀ v l st, .wait v x.cred l st .waiting ∈ s.escort.list →
              .wait v x.cred l st .releasePending ∈ u.escort.list ∧ (l, v) ∈ u.mail.releases
              ∧ ((s.lane l).state.inService = true → hasDisplay s l .outer = true →
                (((s.lane l).display .outer).holdDue = none →
                  ((u.lane l).display .outer).shown = some .wait ∧ (u.line l).showOuter = some .wait)
                ∧ (((s.lane l).display .outer).holdDue ≠ none → ((u.lane l).display .outer).waiting = some .wait)))))
    ∧ (∀ l v before after, s.mail.releases = before ++ (l, v) :: after → (∀ y ∈ before, y.1 ≠ l) →
      ∃ u, exec (.laneReleaseNotice l) s = .next u ∧ u.mail.releases = before ++ after
        ∧ u.table = s.table ∧ (u.lane l).windows.length = (s.lane l).windows.length
        ∧ (∀ x sp m st ph, s.escort.list.find? (pendingWaitAt l) = some (.wait x sp m st ph) →
            (s.lane l).state.inService = true → (s.lane l).reservation = none → modeEnables s l .entry = true →
            0 < freePlaces s l → .release x l ∈ u.arbiter.second))
    ∧ (0 < s.mail.escortLockdowns → ∃ u, exec .escortLockdown s = .next u ∧ u.escort = { s.escort with list := [] }
        ∧ u.mail.escortLockdowns = s.mail.escortLockdowns - 1
        ∧ u.arbiter.first = s.arbiter.first ++ (s.escort.list.filterMap (fun r =>
            match r with | .wait v _ _ _ _ => some (.claimRelease v) | _ => none)))
    ∧ (0 < s.mail.escortClears → ∃ u, exec .escortEgressClear s = .next u ∧ u.escort = { s.escort with list := [] }
        ∧ u.lanes = s.lanes ∧ u.mail.escortClears = s.mail.escortClears - 1
        ∧ u.arbiter.first = s.arbiter.first ++ (s.escort.list.filterMap (fun r =>
            match r with | .wait v _ _ _ _ => some (.claimRelease v) | _ => none)))

/-- ESCORT_END_MESSAGE (R90) and the escort release at the table (R86, R87): a release whose lane takes it and whose
entry still waits makes the visitor's window; otherwise none is made, and a WAIT whose entry no longer waits ends. That
a message ends whichever WAIT or credit stands is log entry 31. -/
def Obligations.EscortEndsAndReleases : Prop :=
  ∀ (s : State), s.resetHeld = false →
    (∀ v rest, s.mail.escortEnds = .wait v :: rest → ∃ u, exec .escortEndMessage s = .next u
      ∧ u.mail.escortEnds = rest ∧ u.waitOf v = none ∧ u.table = s.table
      ∧ (s.waitOf v = none → u.escort = s.escort ∧ u.mail.records = s.mail.records))
    ∧ (∀ c rest, s.mail.escortEnds = .credit c :: rest → ∃ u, exec .escortEndMessage s = .next u
      ∧ u.mail.escortEnds = rest ∧ u.hasCredit c = false
      ∧ u.mail.records = s.mail.records ++ (if s.hasCredit c then
          [(.escort, { time := s.stamp, code := .escort .creditRemoved, cred := some c })] else []))
    ∧ (∀ v l rest, s.arbiter.first = [] → s.arbiter.second = .release v l :: rest →
      ∃ u, exec .escortRelease s = .next u
        ∧ (laneTakesRelease s l = true → releasingAt s l v = true → ∀ e, s.entry v = some e → e.claim = some .wait →
            (u.lane l).windows.length = (s.lane l).windows.length + 1
            ∧ u.entry v = some { e with claim := some (.window ⟨l, (s.lane l).nextSerial⟩) } ∧ u.waitOf v = none)
        ∧ (laneTakesRelease s l = true → releasingAt s l v = true → (∀ e, s.entry v = some e → e.claim ≠ some .wait) →
            u.table = s.table ∧ u.waitOf v = none ∧ (u.lane l).windows.length = (s.lane l).windows.length)
        ∧ (laneTakesRelease s l = false ∨ releasingAt s l v = false →
            u.table = s.table ∧ (u.lane l).windows.length = (s.lane l).windows.length))

/-! ## Dispatch unit -/

/-- TAKE_CALLS, ASSIGN and DECLINE (R102, R104, R105, R108): up to four records leave the queue; an answer for a live
window whose call was taken settles it, and any other is STALE. -/
def Obligations.CallsTakenAndAnswered : Prop :=
  ∀ (p : Port) (s : State),
    (Asked p .takeCalls s → ∃ u, exec (.takeCalls p) s = .next u
      ∧ u.dispatch = { s.dispatch with queue := s.dispatch.queue.drop 4 }
      ∧ u.mail.replies.get p = some (replyBytes .ok
          (b1 (s.dispatch.queue.length - 4) ++ (s.dispatch.queue.take 4).flatMap callBytes)))
    ∧ (∀ lane serial car, Asked p (.assign lane serial car) s →
      (7 < lane.toNat ∨ 31 < car.toNat → exec (.assign p) s = .next (answer p .badField [] (taken p s)))
      ∧ (∀ l, l.num = lane.toNat → car.toNat ≤ 31 →
        (answerableWindow s ⟨l, serial⟩ = none → ∃ u, exec (.assign p) s = .next u ∧ u.lanes = s.lanes
          ∧ u.mail.replies.get p = some (replyBytes .stale [])
          ∧ u.mail.records = s.mail.records ++ [(.dispatch,
              { time := s.stamp, code := .dispatch .stale, lane := some l, tag := some ⟨l, serial⟩
                cred := (findWindow s ⟨l, serial⟩).map (fun w => w.cred), detail := .items { late := true } [car] })])
        ∧ (∀ w, answerableWindow s ⟨l, serial⟩ = some w → ∃ u v, exec (.assign p) s = .next u
          ∧ findWindow u ⟨l, serial⟩ = some v ∧ v.call = .answered ∧ v.car = some car.toNat ∧ v.callDue = none
          ∧ v.cred = w.cred
          ∧ u.mail.replies.get p = some (replyBytes .ok [])
          ∧ u.mail.indications = s.mail.indications ++ [(⟨l, serial⟩, .car car.toNat)]
          ∧ u.mail.records = s.mail.records ++ [(.dispatch,
              { time := s.stamp, code := .dispatch .assigned, lane := some l, tag := some ⟨l, serial⟩
                cred := some w.cred, detail := .items {} [car] })])))
    ∧ (∀ lane serial, Asked p (.decline lane serial) s →
      (7 < lane.toNat → exec (.decline p) s = .next (answer p .badField [] (taken p s)))
      ∧ (∀ l, l.num = lane.toNat →
        (answerableWindow s ⟨l, serial⟩ = none → ∃ u, exec (.decline p) s = .next u ∧ u.lanes = s.lanes
          ∧ u.mail.replies.get p = some (replyBytes .stale [])
          ∧ u.mail.records = s.mail.records ++ [(.dispatch,
              { time := s.stamp, code := .dispatch .stale, lane := some l, tag := some ⟨l, serial⟩
                cred := (findWindow s ⟨l, serial⟩).map (fun w => w.cred), detail := .items { late := true } [] })])
        ∧ (∀ w, answerableWindow s ⟨l, serial⟩ = some w → ∃ u v, exec (.decline p) s = .next u
          ∧ findWindow u ⟨l, serial⟩ = some v ∧ v.call = .declined ∧ v.car = none ∧ v.callDue = none
          ∧ v.cred = w.cred
          ∧ u.mail.replies.get p = some (replyBytes .ok [])
          ∧ u.mail.indications = s.mail.indications ++ [(⟨l, serial⟩, .seePanel)]
          ∧ u.mail.records = s.mail.records ++ [(.dispatch,
              { time := s.stamp, code := .dispatch .declined, lane := some l, tag := some ⟨l, serial⟩
                cred := some w.cred })])))

/-- SET_DISPATCH and DISPATCH_STATUS (R98, R106, R108, R109), the call timeout (R103), and the lane's taking of the
unit's indications and of a change of hold-for-car (R100, R106). -/
def Obligations.DispatchEvents : Prop :=
  ∀ (p : Port) (s : State),
    (∀ d h t, Asked p (.setDispatch d h t) s →
      (dispatchSettings s.dispatch d h t = none → exec (.setDispatch p) s = .next (answer p .badField [] (taken p s)))
      ∧ (∀ x, dispatchSettings s.dispatch d h t = some x → ∃ u, exec (.setDispatch p) s = .next u ∧ u.dispatch = x
          ∧ x.queue = s.dispatch.queue ∧ x.loss = s.dispatch.loss ∧ (t = none → x.timeout = s.dispatch.timeout)
          ∧ u.mail.replies.get p = some (replyBytes .ok [])
          ∧ u.mail.holds = s.mail.holds ++ (if x.holdForCar = s.dispatch.holdForCar then []
              else Lane.all.map (fun l => (l, x.holdForCar)))))
    ∧ (Asked p .dispatchStatus s → exec (.dispatchStatus p) s = .next
        { answer p .ok (dispatchBody s) (taken p s) with
          dispatch := { s.dispatch with loss := if p = .dispatch then 0 else s.dispatch.loss } })
    ∧ (s.resetHeld = false →
      (∀ t w, findWindow s t = some w →
        (s.due w.callDue = false → exec (.callTimerExpiry t) s = .next s)
        ∧ (s.due w.callDue = true →
          (w.call = .posted → ∃ u v, exec (.callTimerExpiry t) s = .next u ∧ findWindow u t = some v ∧ v.call = .expired
            ∧ v.callDue = none ∧ (∀ c f n, .call t c f n ∉ u.dispatch.queue)
            ∧ u.mail.indications = s.mail.indications ++ [(t, .seePanel)])
          ∧ (w.call = .taken → ∃ u v, exec (.callTimerExpiry t) s = .next u ∧ findWindow u t = some v
            ∧ v.call = .timedOut ∧ v.callDue = none ∧ u.dispatch = s.dispatch
            ∧ u.mail.indications = s.mail.indications ++ [(t, .seePanel)])))
      ∧ (∀ t, findWindow s t = none → exec (.callTimerExpiry t) s = .next s)
      ∧ (∀ t i before after, s.mail.indications = before ++ (t, i) :: after → (∀ y ∈ before, y.1.lane ≠ t.lane) →
          ∃ u, exec (.dispatchIndication t.lane) s = .next u ∧ u.mail.indications = before ++ after
            ∧ (findWindow s t = none ∨ (∃ w, findWindow s t = some w ∧ w.state = .closing) →
                exec (.dispatchIndication t.lane) s
                  = .next (endEvent t.lane (s.onMail (fun m => { m with indications := before ++ after }))))
            ∧ (∀ w, findWindow s t = some w → w.state ≠ .closing → exec (.dispatchIndication t.lane) s
                  = .next (endEvent t.lane (ask t.lane w.dir.reader i
                      (s.onMail (fun m => { m with indications := before ++ after }))))))
      ∧ (∀ l on before after, s.mail.holds = before ++ (l, on) :: after → (∀ y ∈ before, y.1 ≠ l) →
          ∃ u, exec (.holdForCarReport l) s = .next u ∧ u.mail.holds = before ++ after
            ∧ u.dispatch = s.dispatch ∧ (u.lane l).windows.length = (s.lane l).windows.length
            ∧ (∀ w, on = false → (s.lane l).windows = [w] → w.state = .assigning → ∃ v, (u.lane l).windows = [v]
                ∧ v.tag = w.tag ∧ v.state = if paceHolds s l w.dir then .paced else .opened)))

/-! ## Bank safety unit -/

/-- The EGRESS_REQ input (R126, R127, R131): a difference starts the 50 ms debounce and its end stops it; when it runs
out the level is taken, and a call overtakes every lane, and a release in EGRESS begins the restore. That the level at
the pin is noted and not compared while RESET_N is held low is log entry 9, with R138. -/
def Obligations.EgressInput : Prop :=
  ∀ (s : State),
    (∀ high, s.resetHeld = true →
      exec (.egressReqChange high) s = .next { s with pins := { s.pins with egressReq := high } })
    ∧ (∀ high, s.resetHeld = false → exec (.egressReqChange high) s = .next
        { s with
          pins := { s.pins with egressReq := high }
          safety := { s.safety with
            debounceDue := if high = s.safety.called then none
              else if s.safety.debounceDue.isSome then s.safety.debounceDue else some (s.time + 50) } })
    ∧ (s.resetHeld = false → s.due s.safety.debounceDue = false → exec .egressDebounceExpiry s = .next s)
    ∧ (s.resetHeld = false → s.due s.safety.debounceDue = true →
      ∃ u, exec .egressDebounceExpiry s = .next u ∧ u.safety.called = s.pins.egressReq ∧ u.safety.debounceDue = none
        ∧ (s.pins.egressReq = true →
            u.safety.overtake = true ∧ u.safety.restorePermitted = false ∧ u.safety.releaseWaiting = false
            ∧ u.safety.egress = s.safety.egress ∧ u.mail.overtakes = s.mail.overtakes ++ Lane.all
            ∧ u.mail.records = s.mail.records ++ [(.safety, { time := s.stamp, code := .bank .egressCall })]
            ∧ u.mail.notices = s.mail.notices ++ Port.all.map (fun p => .latched p .bank))
        ∧ (s.pins.egressReq = false →
            (s.safety.overtake = true → u.safety.releaseWaiting = true ∧ u.safety.egress = s.safety.egress)
            ∧ (s.safety.overtake = false → s.safety.egress ≠ .egress → u = { s with
                safety := { s.safety with debounceDue := none, called := false } })
            ∧ (s.safety.overtake = false → s.safety.egress = .egress →
                u.safety.egress = .restoring ∧ u.safety.restorePermitted = !s.safety.needsRequest
                ∧ (∀ l, (s.lane l).state = .free → s.safety.needsRequest = false → (u.lane l).restoring = true))))

/-- The lanes' orders and reports in an overtake and in lockdown (R125, R127 to R129, R134, R135), the end of a restore
(R134) and a lane's own end of it (R133). EGRESS comes with the last report that a condition of R129 rests on, which
report that is being log entry 43; which amnesty ends a restore is log entry 21. -/
def Obligations.SafetyEvents : Prop :=
  ∀ (s : State), s.resetHeld = false →
    (∀ l, l ∉ s.mail.overtakes → exec (.overtakeOrder l) s = .next s)
    ∧ (∀ l, l ∈ s.mail.overtakes → ∃ u, exec (.overtakeOrder l) s = .next u
        ∧ u.mail.overtakes = s.mail.overtakes.erase l
        ∧ ((s.lane l).state = .ready ∨ (s.lane l).state = .serving ∨ (s.lane l).state = .alarm →
            (u.lane l).state = .free ∧ ∀ w ∈ (s.lane l).windows, w.state ≠ .closing →
              .posting ⟨w.tag, w.cred, w.dir, .overtaken⟩ ∈ u.arbiter.first)
        ∧ ((s.lane l).state ≠ .ready → (s.lane l).state ≠ .serving → (s.lane l).state ≠ .alarm →
            (u.lane l).state = (s.lane l).state))
    ∧ (∀ l, l ∉ s.mail.lockdowns → exec (.lockdownOrder l) s = .next s)
    ∧ (∀ l, l ∈ s.mail.lockdowns → ∃ u, exec (.lockdownOrder l) s = .next u
        ∧ u.mail.lockdowns = s.mail.lockdowns.erase l
        ∧ ∀ w ∈ (s.lane l).windows, w.dir = .entry → w.state.beforeTransit = true →
            .posting ⟨w.tag, w.cred, .entry, .withdrawn⟩ ∈ u.arbiter.first)
    ∧ (∀ l r before after, s.mail.reports = before ++ (l, r) :: after → (∀ y ∈ before, y.1 ≠ l) →
        ∃ u, exec (.laneStateReport l) s = .next u ∧ u.mail.reports = before ++ after
          ∧ (s.safety.overtake = true → s.safety.releaseWaiting = false → s.mail.overtakes = [] →
              (∀ m, (s.lane m).windows = [] ∧ (s.lane m).state ≠ .ready ∧ (s.lane m).state ≠ .serving
                ∧ (s.lane m).state ≠ .alarm) →
              (∀ former new, r = .changed former new → new ≠ .ready ∧ new ≠ .serving ∧ new ≠ .alarm) →
              (∀ y ∈ before ++ after, y.2.bears = false) →
              u.safety.egress = .egress ∧ u.safety.overtake = false
              ∧ u.mail.escortClears = s.mail.escortClears + 1 ∧ u.occupancy.uncertain = true)
          ∧ (s.safety.overtake = true → s.mail.overtakes ≠ [] ∨ (∃ y ∈ before ++ after, y.2.bears = true) →
              u.safety.egress = s.safety.egress ∧ u.safety.overtake = true)
          ∧ (s.safety.overtake = false → (∀ former new, r = .changed former new → former ≠ .free) →
              u = { s with mail := { s.mail with reports := before ++ after } }))
    ∧ (s.mail.amnestyDone = 0 → exec .amnestyDone s = .next s)
    ∧ (0 < s.mail.amnestyDone → ∃ u, exec .amnestyDone s = .next u
        ∧ u.mail.amnestyDone = s.mail.amnestyDone - 1
        ∧ (s.safety.overtake = false → s.safety.egress = .restoring → s.safety.claimStands = true →
            u.safety.egress = .normal
            ∧ u.mail.records = s.mail.records ++ [(.safety, { time := s.stamp, code := .bank .restored })])
        ∧ (s.safety.overtake = true → u.safety = s.safety))
    ∧ (∀ l, (s.lane l).state ≠ .free ∨ s.due (s.lane l).clearDue = false →
        exec (.freeRestoreClearExpiry l) s = .next s)
    ∧ (∀ l, (s.lane l).state = .free → s.due (s.lane l).clearDue = true →
        ∃ u, exec (.freeRestoreClearExpiry l) s = .next u ∧ (u.lane l).state = .ready)

/-- RESTORE, SET_EGRESS, LOCKDOWN and SAFETY_STATUS (R132, R135, R137). Reply bytes that R193 leaves open follow log
entry 7. -/
def Obligations.SafetyRequests : Prop :=
  ∀ (p : Port) (s : State),
    (Asked p .restore s →
      (s.safety.egress = .restoring → s.safety.overtake = false → s.safety.restorePermitted = false →
        ∃ u, exec (.restore p) s = .next u ∧ u.safety.restorePermitted = true
          ∧ u.mail.replies.get p = some (replyBytes .ok [1])
          ∧ ∀ l, (s.lane l).state = .free → (u.lane l).restoring = true)
      ∧ (s.safety.egress ≠ .restoring ∨ s.safety.overtake = true ∨ s.safety.restorePermitted = true →
        exec (.restore p) s = .next (answer p .ok [0, BitVec.ofNat 8 s.safety.egress.num] (taken p s))))
    ∧ (∀ v, Asked p (.setEgress v) s →
      (v = 0 → exec (.setEgress p) s
        = .next (answer p .ok [] { taken p s with safety := { s.safety with needsRequest := false } }))
      ∧ (v = 1 → exec (.setEgress p) s
        = .next (answer p .ok [] { taken p s with safety := { s.safety with needsRequest := true } }))
      ∧ (1 < v.toNat → exec (.setEgress p) s = .next (answer p .badField [] (taken p s))))
    ∧ (∀ v, Asked p (.lockdown v) s →
      (1 < v.toNat → exec (.lockdown p) s = .next (answer p .badField [] (taken p s)))
      ∧ ((v = 1 ∧ s.safety.lockdown = true) ∨ (v = 0 ∧ s.safety.lockdown = false) →
        exec (.lockdown p) s = .next (answer p .ok [] (taken p s)))
      ∧ (v = 1 → s.safety.lockdown = false → ∃ u, exec (.lockdown p) s = .next u
          ∧ u.safety = { s.safety with lockdown := true } ∧ u.mail.lockdowns = s.mail.lockdowns ++ Lane.all
          ∧ u.mail.escortLockdowns = s.mail.escortLockdowns + 1
          ∧ u.mail.replies.get p = some (replyBytes .ok [])
          ∧ u.mail.records = s.mail.records ++ [(.safety, { time := s.stamp, code := .bank .lockdown, detail := .bank [1] })])
      ∧ (v = 0 → s.safety.lockdown = true → ∃ u, exec (.lockdown p) s = .next u
          ∧ u.safety = { s.safety with lockdown := false } ∧ u.mail.lockdowns = s.mail.lockdowns
          ∧ u.mail.escortLockdowns = s.mail.escortLockdowns
          ∧ u.mail.replies.get p = some (replyBytes .ok [])
          ∧ u.mail.records = s.mail.records ++ [(.safety, { time := s.stamp, code := .bank .lockdown, detail := .bank [0] })]))
    ∧ (Asked p .safetyStatus s → exec (.safetyStatus p) s = .next (answer p .ok (safetyBody s) (taken p s)))

/-! ## Lane lines -/

/-- LANE_CYCLE (R144 to R146, R150): no cycle starts before its time, at a lane that is not addressed, or while a reply
is awaited. Each frame sent opens with BREAK and SYNC (R140, R196). Without collisions, the frames sent are the pending
command and displays of agreed modules, then the first frame due to a slot, whose reply is awaited. -/
def Obligations.LaneCycles : Prop :=
  ∀ (l : Lane) (s : State), s.resetHeld = false →
    (∀ coll, (s.lane l).state = .masked ∨ (s.lane l).state = .isolated ∨ (s.line l).await ≠ none
        ∨ s.time < (s.line l).nextCycle → exec (.laneCycle l coll) s = .next s)
    ∧ ((s.lane l).state ≠ .masked → (s.lane l).state ≠ .isolated → (s.line l).await = none →
        (s.line l).nextCycle ≤ s.time →
        (∀ coll, ∃ u, exec (.laneCycle l coll) s = .next u ∧ (u.line l).nextCycle = s.time + 20
          ∧ ∀ f ∈ (u.line l).frames, ∃ rest, f = .brk :: .byte 0xAA :: rest)
        ∧ ∃ u, exec (.laneCycle l 0) s = .next u
          ∧ (∀ commands shown1 shown2 : List (List LineMark),
              commands = (match (s.line l).pendingCmd with
                | some c => if agreedAt s l .drive then [leafFrame c] else [] | none => []) →
              shown1 = (match (s.line l).showOuter with
                | some i => if agreedAt s l .outer then [showFrame .outer i] else [] | none => []) →
              shown2 = (match (s.line l).showInner with
                | some i => if agreedAt s l .inner then [showFrame .inner i] else [] | none => []) →
              (∀ k, dueFrame (s.line l).drive = some k →
                (u.line l).frames = commands ++ shown1 ++ shown2 ++ [slotFrame .drive k]
                ∧ (u.line l).await = some ⟨.drive, k, s.time, false⟩)
              ∧ (∀ k, dueFrame (s.line l).drive = none → dueFrame (s.line l).outer = some k →
                (u.line l).frames = commands ++ shown1 ++ shown2 ++ [slotFrame .outer k]
                ∧ (u.line l).await = some ⟨.outer, k, s.time, false⟩)
              ∧ (∀ k, dueFrame (s.line l).drive = none → dueFrame (s.line l).outer = none →
                dueFrame (s.line l).inner = some k →
                (u.line l).frames = commands ++ shown1 ++ shown2 ++ [slotFrame .inner k]
                ∧ (u.line l).await = some ⟨.inner, k, s.time, false⟩)
              ∧ (dueFrame (s.line l).drive = none → dueFrame (s.line l).outer = none →
                dueFrame (s.line l).inner = none →
                (u.line l).frames = commands ++ shown1 ++ shown2 ∧ (u.line l).await = none))
          ∧ (agreedAt s l .drive = true → (u.line l).pendingCmd = (s.line l).pendingCmd)
          ∧ (agreedAt s l .outer = true → (u.line l).showOuter = none)
          ∧ (agreedAt s l .inner = true → (u.line l).showInner = none))

/-- A frame without a good reply (R141, R142, R149 to R151, R155): a poll of an agreed module counts a miss and its
module is LOST at the third, a query or a probe ends as its round does, a wrong rate in a round is REFUSED, a discarded
reply is a line error, and a reply without end is JABBER. To a frame of a round that a RESTART_LANE ended, an answer or
its absence does nothing but the line error and the jabber (log entry 14). -/
def Obligations.BadReplies : Prop :=
  ∀ (l : Lane) (coll : Collisions) (s : State), s.resetHeld = false →
    ((s.line l).await = none → exec (.noReply l coll) s = .next s ∧ (∀ r, exec (.badReply l r coll) s = .next s)
      ∧ exec (.jabberReply l coll) s = .next s)
    ∧ ∀ a, (s.line l).await = some a →
      (s.time < a.since + 2 → exec (.noReply l coll) s = .next s)
      ∧ (a.since + 2 ≤ s.time → ∃ u, exec (.noReply l coll) s = .next u
          ∧ (a.void = true ∨ a.sent = .query ∨ a.sent = .poll ∧ ((s.line l).slot a.slot).status ≠ .agreed →
              (u.line l).slot a.slot = (s.line l).slot a.slot)
          ∧ (a.void = false → a.sent = .poll → ((s.line l).slot a.slot).status = .agreed →
              (((s.line l).slot a.slot).miss < 2 → (u.line l).slot a.slot
                = { (s.line l).slot a.slot with miss := ((s.line l).slot a.slot).miss + 1 })
              ∧ (2 ≤ ((s.line l).slot a.slot).miss →
                ((u.line l).slot a.slot).status = .lost ∧ ((u.line l).slot a.slot).profile = none
                ∧ ((u.line l).slot a.slot).retry = .running (s.time + 1000)
                ∧ (a.slot = .drive → Attributed l s ∨ (s.lane l).state = .free → (u.lane l).state = .fault)))
          ∧ (a.void = false → a.sent = .probe →
              ((u.line l).slot a.slot).status
                = (if ((s.line l).slot a.slot).status = .lost then .lost else .silent)
              ∧ ((u.line l).slot a.slot).retry = .running (s.time + 1000)))
      ∧ (∀ r, judgeReply a.slot a.sent r = .rate → a.sent ≠ .poll → ∃ u, exec (.badReply l r coll) s = .next u
          ∧ (a.void = true → (u.line l).slot a.slot = (s.line l).slot a.slot)
          ∧ (a.void = false →
              ((u.line l).slot a.slot).status = .refused ∧ ((u.line l).slot a.slot).refusal = some .rate
              ∧ ((u.line l).slot a.slot).retry = .running (s.time + 1000)))
      ∧ (∀ r, judgeReply a.slot a.sent r = .bad ∨ judgeReply a.slot a.sent r = .rate ∧ a.sent = .poll →
          ∃ u, exec (.badReply l r coll) s = .next u
          ∧ (a.void = true → (u.line l).slot a.slot = (s.line l).slot a.slot)
          ∧ (a.void = false → a.sent = .poll → ((s.line l).slot a.slot).status = .agreed →
              ((s.line l).slot a.slot).miss < 2 →
              ((u.line l).slot a.slot).miss = ((s.line l).slot a.slot).miss + 1)
          ∧ (coll = 0 → (s.lane l).state ≠ .masked → (s.lane l).state ≠ .isolated →
              (u.lane l).counters.lineError = saturate (s.lane l).counters.lineError))
      ∧ (∃ u, exec (.jabberReply l coll) s = .next u ∧ ((u.line l).slot a.slot).status = .jabber
          ∧ ((u.line l).slot a.slot).lockout = .running (s.time + 1000)
          ∧ ((u.line l).slot a.slot).profile = none
          ∧ (coll = 0 → (s.lane l).state ≠ .masked → (s.lane l).state ≠ .isolated →
              (u.lane l).counters.lineError = saturate (s.lane l).counters.lineError))

/-- Good replies (R145, R147, R148, R151 to R154): a good reply to a poll clears the miss count; a SENSE is handed to
the lane sequencer; a presentation outside the agreed media counts a denial; an advertised profile is agreed to the
highest allowed, or REFUSED for MISMATCH; a reply to the probe infers the legacy profile. A good reply to a frame of a
round that a RESTART_LANE ended does nothing (log entry 14). -/
def Obligations.GoodReplies : Prop :=
  ∀ (l : Lane) (r : RawReply) (coll : Collisions) (a : Await) (s : State), s.resetHeld = false →
    (s.line l).await = some a →
    (a.void = true → ∀ c ∈ [Instr.idleReply l r coll, .presentationReply l r coll, .senseReply l r coll,
        .profileReply l r coll], ∃ u, exec c s = .next u ∧ (u.line l).slot a.slot = (s.line l).slot a.slot
          ∧ u.mail.sense = s.mail.sense ∧ u.arbiter.second = s.arbiter.second)
    ∧ (a.void = false →
    (judgeReply a.slot a.sent r = .good .idle → a.sent = .poll → ∃ u, exec (.idleReply l r coll) s = .next u
      ∧ (u.line l).slot a.slot = { (s.line l).slot a.slot with miss := 0 })
    ∧ (judgeReply a.slot a.sent r = .good .idle → a.sent = .probe → s.bank.qualified = false →
      ∃ u, exec (.idleReply l r coll) s = .next u ∧ ((u.line l).slot a.slot).status = .agreed
        ∧ ((u.line l).slot a.slot).inferred = true
        ∧ ((u.line l).slot a.slot).profile = some (if a.slot = .drive then .leaf .singleBasic else .reader 1 false))
    ∧ (∀ evs pos z, judgeReply a.slot a.sent r = .good (.sense evs pos z) → a.sent = .poll →
      ∃ u, exec (.senseReply l r coll) s = .next u
        ∧ u.mail.sense = s.mail.sense ++ (evs.map (fun e => (l, .event e)) ++ [(l, .update pos z)])
        ∧ (u.line l).slot a.slot = { (s.line l).slot a.slot with miss := 0 }
        ∧ (coll = 0 → (u.line l).pendingCmd = (s.line l).pendingCmd.filter (fun c => !confirms pos c)))
    ∧ (∀ c m, judgeReply a.slot a.sent r = .good (.presentation c m) → a.sent = .poll →
      ∃ u, exec (.presentationReply l r coll) s = .next u
        ∧ (u.line l).slot a.slot = { (s.line l).slot a.slot with miss := 0 }
        ∧ (c ≠ 0 → c ≠ 0xFFFFFFFF → hasMedium (agreedMedia s l a.slot) m = false →
            (u.lane l).decision = (s.lane l).decision
            ∧ ((s.lane l).state ≠ .masked → (s.lane l).state ≠ .isolated →
                (u.lane l).counters.denial = saturate (s.lane l).counters.denial))
        ∧ (c ≠ 0 → c ≠ 0xFFFFFFFF → hasMedium (agreedMedia s l a.slot) m = true → (s.lane l).decision = none →
            laneAccepts s l (slotDirection a.slot) = true → hasRoom s l = true →
            (u.lane l).decision = some ⟨slotDirection a.slot, c, m⟩
            ∧ u.arbiter.second = s.arbiter.second ++ [.lookup l]))
    ∧ (∀ v, judgeReply a.slot a.sent r = .good (.leafProfile v) → a.sent = .query →
      ∃ u, exec (.profileReply l r coll) s = .next u
        ∧ (∀ q, bestLeaf (v &&& (s.lane l).settings.allowedLeaf) = some q →
            ((u.line l).slot a.slot).status = .agreed ∧ ((u.line l).slot a.slot).profile = some (.leaf q)
            ∧ ((u.line l).slot a.slot).inferred = false)
        ∧ (bestLeaf (v &&& (s.lane l).settings.allowedLeaf) = none →
            ((u.line l).slot a.slot).status = .refused ∧ ((u.line l).slot a.slot).refusal = some .mismatch))
    ∧ (∀ m d, judgeReply a.slot a.sent r = .good (.readerProfile m d) → a.sent = .query →
      ∃ u, exec (.profileReply l r coll) s = .next u
        ∧ (m &&& (s.lane l).settings.allowedMedia ≠ 0 →
            ((u.line l).slot a.slot).status = .agreed
            ∧ ((u.line l).slot a.slot).profile = some (.reader (m &&& (s.lane l).settings.allowedMedia) d))
        ∧ (m &&& (s.lane l).settings.allowedMedia = 0 →
            ((u.line l).slot a.slot).status = .refused ∧ ((u.line l).slot a.slot).refusal = some .mismatch)))

/-- RETRY_EXPIRY, LOCKOUT_EXPIRY, STRAY and SET_LINE (R142, R143, R155, R159). Strays at a lane out of service are log
entry 25, and a setting byte above 1 is log entry 26. -/
def Obligations.LineTimersAndSetting : Prop :=
  ∀ (s : State), s.resetHeld = false →
    (∀ l x due, ((s.line l).slot x).retry = .running due →
      (((s.line l).slot x).status = .lost ∨ ((s.line l).slot x).status = .refused
          ∨ ((s.line l).slot x).status = .silent) → due ≤ s.time →
      ∃ u, exec (.retryExpiry l x) s = .next u ∧ ((u.line l).slot x).round = true ∧ ((u.line l).slot x).tries = 0
        ∧ ((u.line l).slot x).probeSent = false ∧ ((u.line l).slot x).retry = .stopped
        ∧ (((s.line l).slot x).status = .lost → ((u.line l).slot x).status = .lost)
        ∧ (((s.line l).slot x).status = .silent → ((u.line l).slot x).status = .querying)
        ∧ (∀ why, ((s.line l).slot x).status = .refused → ((s.line l).slot x).refusal = some why →
            ((u.line l).slot x).status = .querying))
    ∧ (∀ l x, (∀ due, ((s.line l).slot x).retry = .running due → s.time < due) →
        exec (.retryExpiry l x) s = .next s)
    ∧ (∀ l x due, ((s.line l).slot x).lockout = .running due → ((s.line l).slot x).status = .jabber → due ≤ s.time →
        ∃ u, exec (.lockoutExpiry l x) s = .next u ∧ (u.line l).slot x = SlotRec.reset)
    ∧ (∀ l x, (∀ due, ((s.line l).slot x).lockout = .running due → s.time < due) →
        exec (.lockoutExpiry l x) s = .next s)
    ∧ (∀ l, (s.lane l).state ≠ .masked → (s.lane l).state ≠ .isolated → (s.line l).await = none →
        exec (.stray l) s = .next (s.onLane l (fun u =>
          { u with counters := { u.counters with lineError := saturate u.counters.lineError } })))
    ∧ (∀ l, (s.lane l).state = .masked ∨ (s.lane l).state = .isolated ∨ (s.line l).await ≠ none →
        exec (.stray l) s = .next s)
    ∧ (∀ p v, Asked p (.setLine v) s →
      (v = none → exec (.setLine p) s = .next (answer p .ok [if s.bank.qualified then 1 else 0] (taken p s)))
      ∧ (v = some 1 → exec (.setLine p) s
          = .next (answer p .ok [1] { taken p s with bank := { s.bank with qualified := true } }))
      ∧ (v = some 0 → exec (.setLine p) s
          = .next (answer p .ok [0] { taken p s with bank := { s.bank with qualified := false } }))
      ∧ (∀ b, v = some b → 1 < b.toNat → exec (.setLine p) s = .next (answer p .badField [] (taken p s))))

/-! ## Lane events -/

/-- The sense events at a lane that attributes crossings (R60 to R64): a crossing into an OPEN window's direction takes
it to TRANSIT, and any other raises an alarm; a crossing out passes the window; a retreat opens its window once more, or
ends it; a pair without two windows moving raises an alarm. The detail of an unmatched retreat is log entry 20. -/
def Obligations.CrossingsAttributed : Prop :=
  ∀ (l : Lane) (s : State) (before after : List (Lane × SenseItem)), Attributed l s →
    (∀ side, SenseWaits l (.event (.crossIn side)) before after s → ∃ u, exec (.crossIn l) s = .next u
      ∧ u.mail.sense = before ++ after
      ∧ (∀ w, (s.lane l).windows.find? (Window.isIn side.inward .opened) = some w → ∃ v, v ∈ (u.lane l).windows
          ∧ v.tag = w.tag ∧ v.cred = w.cred ∧ v.state = .transit ∧ v.openDue = none
          ∧ v.transitDue = some (s.time + (s.lane l).settings.transitLimit * 1000))
      ∧ ((∀ w ∈ (s.lane l).windows, w.dir = side.inward → w.state ≠ .opened) →
          AlarmRaised l (if (s.lane l).windows.any (Window.isIn side.inward .transit) then .tailgate else .intrusion) s u))
    ∧ (∀ d, SenseWaits l (.event (.crossLeaf d)) before after s → ∃ u, exec (.crossLeaf l) s = .next u
      ∧ u.mail.sense = before ++ after
      ∧ ∀ w, (s.lane l).windows.find? (fun w => Window.isIn d .transit w && !w.pastLeaf) = some w →
          ∃ v ∈ (u.lane l).windows, v.tag = w.tag ∧ v.pastLeaf = true)
    ∧ (∀ side, SenseWaits l (.event (.crossOut side)) before after s → ∃ u, exec (.crossOut l) s = .next u
      ∧ u.mail.sense = before ++ after
      ∧ (∀ w, (s.lane l).windows.find? (Window.isIn side.outward .transit) = some w →
          u.arbiter.first = s.arbiter.first ++ [.posting ⟨w.tag, w.cred, w.dir, .passed⟩]
          ∧ ∃ v ∈ (u.lane l).windows, v.tag = w.tag ∧ v.state = .closing ∧ v.outcome = some .passed)
      ∧ ((∀ w ∈ (s.lane l).windows, w.dir = side.outward → w.state ≠ .transit) →
          u.arbiter = s.arbiter ∧ u.mail.records = s.mail.records ++ [(.sequencer l,
            { time := s.stamp, code := .lane .unmatchedExit, lane := some l
              detail := .items {} [if side = .outside then 0 else 1] })]))
    ∧ (∀ side, SenseWaits l (.event (.retreat side)) before after s → ∃ u, exec (.retreat l) s = .next u
      ∧ u.mail.sense = before ++ after
      ∧ (∀ w, (s.lane l).windows.reverse.find? (Window.isIn side.inward .transit) = some w →
          (w.retreats ≠ 0 → u.arbiter.first = s.arbiter.first ++ [.posting ⟨w.tag, w.cred, w.dir, .unused⟩])
          ∧ (w.retreats = 0 → (s.lane l).state = .alarm →
              u.arbiter.first = s.arbiter.first ++ [.posting ⟨w.tag, w.cred, w.dir, .withdrawn⟩])
          ∧ (w.retreats = 0 → (s.lane l).state ≠ .alarm → u.arbiter = s.arbiter ∧ ∃ v ∈ (u.lane l).windows,
              v.tag = w.tag ∧ v.state = .opened ∧ v.retreats = 1 ∧ v.pastLeaf = false
              ∧ v.openDue = some (s.time + (s.lane l).settings.openTime * 1000)))
      ∧ ((∀ w ∈ (s.lane l).windows, w.dir = side.inward → w.state ≠ .transit) →
          u.arbiter = s.arbiter ∧ u.mail.records = s.mail.records ++ [(.sequencer l,
            { time := s.stamp, code := .lane .unmatchedRetreat, lane := some l })]))
    ∧ (∀ side, SenseWaits l (.event (.pair side)) before after s → ∃ u, exec (.pair l) s = .next u
      ∧ u.mail.sense = before ++ after
      ∧ (((s.lane l).windows.filter (fun w => Window.isIn side.inward .opened w || Window.isIn side.inward .transit w)).length
          < 2 → AlarmRaised l .tailgate s u)
      ∧ (2 ≤ ((s.lane l).windows.filter
            (fun w => Window.isIn side.inward .opened w || Window.isIn side.inward .transit w)).length →
          u.arbiter = s.arbiter ∧ u.mail.records = s.mail.records ∧ (u.lane l).state = (s.lane l).state))

/-- The other sense items (R60, R67, R158): the obstruction with its timer, and the leaf position with the zones, in
every state that is addressed; and a crossing in a state that attributes none does no more than end the event. -/
def Obligations.SenseItemsTaken : Prop :=
  ∀ (l : Lane) (s : State) (before after : List (Lane × SenseItem)),
    (s.lane l).state ≠ .masked → (s.lane l).state ≠ .isolated →
    (SenseWaits l (.event .obstructOn) before after s → ∃ u, exec (.obstructOn l) s = .next u
      ∧ u.mail.sense = before ++ after ∧ (u.lane l).obstruction = true
      ∧ ((s.lane l).obstruction = false → (u.lane l).obstructDue
          = if (s.lane l).state = .ready ∨ (s.lane l).state = .serving ∨ (s.lane l).state = .alarm
            then some (s.time + 5000) else none)
      ∧ ((s.lane l).obstruction = true → (u.lane l).obstructDue = (s.lane l).obstructDue))
    ∧ (SenseWaits l (.event .obstructOff) before after s → ∃ u, exec (.obstructOff l) s = .next u
      ∧ u.mail.sense = before ++ after ∧ (u.lane l).obstruction = false ∧ (u.lane l).obstructDue = none)
    ∧ (∀ pos z, SenseWaits l (.update pos z) before after s → ∃ u, exec (.senseStateUpdate l) s = .next u
      ∧ u.mail.sense = before ++ after ∧ (u.lane l).leafPos = pos ∧ (u.lane l).zones = z)
    ∧ (¬Attributed l s →
      (∀ side, SenseWaits l (.event (.crossIn side)) before after s →
        exec (.crossIn l) s = .next (endEvent l (s.onMail (fun m => { m with sense := before ++ after }))))
      ∧ (∀ d, SenseWaits l (.event (.crossLeaf d)) before after s →
        exec (.crossLeaf l) s = .next (endEvent l (s.onMail (fun m => { m with sense := before ++ after }))))
      ∧ (∀ side, SenseWaits l (.event (.crossOut side)) before after s →
        exec (.crossOut l) s = .next (endEvent l (s.onMail (fun m => { m with sense := before ++ after }))))
      ∧ (∀ side, SenseWaits l (.event (.retreat side)) before after s →
        exec (.retreat l) s = .next (endEvent l (s.onMail (fun m => { m with sense := before ++ after }))))
      ∧ (∀ side, SenseWaits l (.event (.pair side)) before after s →
        exec (.pair l) s = .next (endEvent l (s.onMail (fun m => { m with sense := before ++ after })))))

/-- The lane's timers (R58, R65 to R67, R69, R73): each does nothing before it has run out. -/
def Obligations.LaneTimers : Prop :=
  ∀ (s : State), s.resetHeld = false →
    (∀ t w, findWindow s t = some w →
      (s.due w.openDue = false → exec (.openTimerExpiry t) s = .next s)
      ∧ (s.due w.openDue = true → w.state ≠ .closing → ∃ u, exec (.openTimerExpiry t) s = .next u
          ∧ u.arbiter.first = s.arbiter.first ++ [.posting ⟨w.tag, w.cred, w.dir, .unused⟩])
      ∧ (s.due w.transitDue = false → exec (.transitTimerExpiry t) s = .next s)
      ∧ (s.due w.transitDue = true → w.state = .transit → ∃ u, exec (.transitTimerExpiry t) s = .next u
          ∧ .posting ⟨w.tag, w.cred, w.dir, .stalled⟩ ∈ u.arbiter.first ∧ (u.lane t.lane).state = .alarm
          ∧ (u.lane t.lane).alarmReason = some .loiter
          ∧ (u.lane t.lane).counters = (s.lane t.lane).counters.alarm .loiter))
    ∧ (∀ t, findWindow s t = none → exec (.openTimerExpiry t) s = .next s ∧ exec (.transitTimerExpiry t) s = .next s)
    ∧ (∀ l, s.due (s.lane l).obstructDue = false → exec (.obstructionTimerExpiry l) s = .next s)
    ∧ (∀ l, s.due (s.lane l).obstructDue = true → ∃ u, exec (.obstructionTimerExpiry l) s = .next u
        ∧ AlarmRaised l .obstructed s u)
    ∧ (∀ l, (s.lane l).state ≠ .alarm ∨ s.due (s.lane l).clearDue = false →
        exec (.clearTimerExpiry l) s = .next s)
    ∧ (∀ l, (s.lane l).state = .alarm → s.due (s.lane l).clearDue = true →
        ((s.lane l).settings.alarmLatch = false ∨ (s.lane l).acknowledged = true →
          ∃ u, exec (.clearTimerExpiry l) s = .next u ∧ (u.lane l).state = .ready)
        ∧ ((s.lane l).settings.alarmLatch = true → (s.lane l).acknowledged = false → (s.lane l).clearing = true →
          ∃ u, exec (.clearTimerExpiry l) s = .next u ∧ (u.lane l).state = .alarm
            ∧ (u.lane l).awaitingReset = true ∧ (u.lane l).clearDue = none))
    ∧ (∀ l, (∀ w ∈ (s.lane l).windows, w.state = .paced → paceHolds s l w.dir = true) →
        exec (.paceIntervalExpiry l) s = .next s)
    ∧ (∀ l w, w ∈ (s.lane l).windows → w.state = .paced → paceHolds s l w.dir = false →
        (∀ x ∈ (s.lane l).windows, x.state = .paced → x = w) →
        ∃ u, exec (.paceIntervalExpiry l) s = .next u ∧ ∃ v ∈ (u.lane l).windows, v.tag = w.tag ∧ v.state = .opened
          ∧ v.openDue = some (s.time + (s.lane l).settings.openTime * 1000))
    ∧ (∀ l rd, s.due ((s.lane l).display rd).holdDue = false → exec (.displayHoldExpiry l rd) s = .next s)
    ∧ (∀ l rd, s.due ((s.lane l).display rd).holdDue = true →
        ∃ u, exec (.displayHoldExpiry l rd) s = .next u
          ∧ (((s.lane l).display rd).waiting = none → ((u.lane l).display rd).holdDue = none ∧ u.lines = s.lines)
          ∧ (∀ i, ((s.lane l).display rd).waiting = some i → ((u.lane l).display rd).shown = some i
              ∧ ((u.lane l).display rd).waiting = none ∧ ((u.lane l).display rd).holdDue = some (s.time + 600)
              ∧ (u.line l).show rd = some i))

/-- The removal of a window whose posting was taken (R50, R71), and a withdrawal that reaches its lane (R13). -/
def Obligations.WindowsRemovedAndWithdrawn : Prop :=
  ∀ (s : State), s.resetHeld = false →
    (∀ r before after, s.mail.results = before ++ r :: after → (∀ y ∈ before, y.tag.lane ≠ r.tag.lane) →
      ∃ u, exec (.windowRemoval r.tag.lane) s = .next u ∧ u.mail.results = before ++ after
        ∧ (findWindow s r.tag = none → u = { s with mail := { s.mail with results := before ++ after } })
        ∧ (∀ w, findWindow s r.tag = some w →
            findWindow u r.tag = none
            ∧ (w.outcome = some .passed →
                u.mail.passages = s.mail.passages ++ [⟨r.tag.lane, w.cls, w.dir⟩]
                ∧ u.mail.sponsors = s.mail.sponsors ++ [⟨r.tag.lane, w.cred, w.cls, w.dir, r.gone, r.refs⟩]
                ∧ (Source.sequencer r.tag.lane, { time := s.stamp, code := .passage, lane := some r.tag.lane
                                                  tag := some r.tag, cred := some w.cred, cls := some w.cls
                                                  dir := some w.dir, origin := some w.origin
                                                  detail := .items { passback := w.passback, entryGone := r.gone } [] })
                    ∈ u.mail.records)
            ∧ (∀ o, w.outcome = some o → o ≠ .passed →
                u.mail.passages = s.mail.passages ∧ u.mail.sponsors = s.mail.sponsors)
            ∧ ((s.lane r.tag.lane).state = .serving → (∀ x ∈ (s.lane r.tag.lane).windows, x.tag = r.tag) →
                (u.lane r.tag.lane).state = .ready)))
    ∧ (∀ t before after, s.mail.withdrawals = before ++ t :: after → (∀ y ∈ before, y.lane ≠ t.lane) →
      ∃ u, exec (.windowWithdrawal t.lane) s = .next u ∧ u.mail.withdrawals = before ++ after
        ∧ (∀ w, findWindow s t = some w → w.state.beforeTransit = true →
            u.arbiter.first = s.arbiter.first ++ [.posting ⟨t, w.cred, w.dir, .withdrawn⟩])
        ∧ ((∀ w, findWindow s t = some w → w.state.beforeTransit = false) → u.arbiter = s.arbiter))
end

