-- ==== Sys2Proof/Laws/State.lean ====
section
/-!
SUPPORT. The collections and the updates of the state: reading what was written, and that an update of one block leaves the
others as they are.
-/
namespace Sys2Proof.Machine

/-! ## Collections -/

@[simp] theorem PerLane.get_set_self {α : Type} (v : PerLane α) (l : Lane) (a : α) : (v.set l a).get l = a := by
  cases l <;> rfl

@[simp] theorem PerLane.get_set_ne {α : Type} (v : PerLane α) {l m : Lane} (a : α) (h : m ≠ l) :
    (v.set l a).get m = v.get m := by
  cases l <;> cases m <;> first | rfl | exact absurd rfl h

@[simp] theorem PerPort.get_set_self {α : Type} (v : PerPort α) (p : Port) (a : α) : (v.set p a).get p = a := by
  cases p <;> rfl

@[simp] theorem PerPort.get_set_ne {α : Type} (v : PerPort α) {p q : Port} (a : α) (h : q ≠ p) :
    (v.set p a).get q = v.get q := by
  cases p <;> cases q <;> first | rfl | exact absurd rfl h

@[simp] theorem PerPort.get_tabulate {α : Type} (f : Port → α) (p : Port) : (PerPort.tabulate f).get p = f p := by
  cases p <;> rfl

@[simp] theorem PerPort.get_map {α β : Type} (f : α → β) (v : PerPort α) (p : Port) : (v.map f).get p = f (v.get p) := by
  cases p <;> rfl

@[simp] theorem PerPort.get_fill {α : Type} (a : α) (p : Port) : (PerPort.fill a).get p = a := by cases p <;> rfl

@[simp] theorem PerLane.get_fill {α : Type} (a : α) (l : Lane) : (PerLane.fill a).get l = a := by cases l <;> rfl

@[simp] theorem PerLane.get_map {α β : Type} (f : α → β) (v : PerLane α) (l : Lane) : (v.map f).get l = f (v.get l) := by
  cases l <;> rfl

@[simp] theorem PerLane.get_tabulate {α : Type} (f : Lane → α) (l : Lane) : (PerLane.tabulate f).get l = f l := by
  cases l <;> rfl

@[simp] theorem Groups.get_map (f : Group → Group) (g : Groups) (n : Nat) : (g.map f).get n = f (g.get n) := by
  match n with
  | 0 | 1 | 2 | _ + 3 => rfl

/-- A group written, or the group as it was. -/
theorem Groups.get_set (g : Groups) (n m : Nat) (x : Group) : (g.set n x).get m = x ∨ (g.set n x).get m = g.get m := by
  match n, m with
  | 0, 0 | 0, 1 | 0, 2 | 0, _ + 3 | 1, 0 | 1, 1 | 1, 2 | 1, _ + 3 | 2, 0 | 2, 1 | 2, 2 | 2, _ + 3 | _ + 3, 0 | _ + 3, 1
  | _ + 3, 2 | _ + 3, _ + 3 => first | exact Or.inl rfl | exact Or.inr rfl

theorem saturate_le (n : Nat) : saturate n ≤ Config.counterMax := by
  unfold saturate; split
  · omega
  · exact Nat.le_refl _

/-- A small counter below its bound goes up by one. -/
theorem saturate_of_lt {n : Nat} (h : n < Config.counterMax) : saturate n = n + 1 := by simp [saturate, h]

theorem mem_laneAll (l : Lane) : l ∈ Lane.all := by cases l <;> decide

theorem mem_portAll (p : Port) : p ∈ Port.all := by cases p <;> decide

/-- What `takeFirst` gives is a member that satisfies the test, and one fewer is left. -/
theorem takeFirst_some {α : Type} {p : α → Bool} {xs : List α} {r : α × List α} (h : takeFirst p xs = some r) :
    p r.1 = true ∧ r.1 ∈ xs ∧ r.2.length + 1 = xs.length := by
  induction xs generalizing r with
  | nil => simp [takeFirst] at h
  | cons x xs ih =>
    simp only [takeFirst] at h
    split at h
    · cases h; simp_all
    · cases hx : takeFirst p xs with
      | none => simp [hx] at h
      | some q =>
        simp [hx] at h
        obtain ⟨h1, h2, h3⟩ := ih hx
        subst h
        exact ⟨h1, List.mem_cons_of_mem _ h2, by simp; omega⟩

/-- The oldest member that satisfies the test is taken, and the others stay in their order. -/
theorem takeFirst_split {α : Type} {p : α → Bool} {before after : List α} {x : α} (hx : p x = true)
    (hb : ∀ y ∈ before, p y = false) : takeFirst p (before ++ x :: after) = some (x, before ++ after) := by
  induction before with
  | nil => simp [takeFirst, hx]
  | cons y ys ih =>
    have hy := hb y (List.mem_cons_self ..)
    have := ih (fun z hz => hb z (List.mem_cons_of_mem _ hz))
    simp [takeFirst, hy, this]

/-- Nothing is taken from a queue without a member that satisfies the test. -/
theorem takeFirst_none {α : Type} {p : α → Bool} {xs : List α} (h : ∀ y ∈ xs, p y = false) : takeFirst p xs = none := by
  induction xs with
  | nil => rfl
  | cons y ys ih =>
    simp [takeFirst, h y (List.mem_cons_self ..), ih (fun z hz => h z (List.mem_cons_of_mem _ hz))]

/-! ## Reading after an update -/

@[simp] theorem State.lane_onLane_self (s : State) (l : Lane) (f : LaneUnit → LaneUnit) :
    (s.onLane l f).lane l = f (s.lane l) := by simp [State.lane, State.onLane]
@[simp] theorem State.lane_onLane_ne (s : State) {l m : Lane} (f : LaneUnit → LaneUnit) (h : m ≠ l) :
    (s.onLane l f).lane m = s.lane m := by simp [State.lane, State.onLane, h]
@[simp] theorem State.line_onLine_self (s : State) (l : Lane) (f : LineUnit → LineUnit) :
    (s.onLine l f).line l = f (s.line l) := by simp [State.line, State.onLine]
@[simp] theorem State.line_onLine_ne (s : State) {l m : Lane} (f : LineUnit → LineUnit) (h : m ≠ l) :
    (s.onLine l f).line m = s.line m := by simp [State.line, State.onLine, h]
@[simp] theorem State.port_onPort_self (s : State) (p : Port) (f : PortUnit → PortUnit) :
    (s.onPort p f).port p = f (s.port p) := by simp [State.port, State.onPort]
@[simp] theorem State.port_onPort_ne (s : State) {p q : Port} (f : PortUnit → PortUnit) (h : q ≠ p) :
    (s.onPort p f).port q = s.port q := by simp [State.port, State.onPort, h]

/-! ## Fields that an update leaves -/

@[simp] theorem State.onLane_fields (s : State) (l : Lane) (f : LaneUnit → LaneUnit) :
    (s.onLane l f).pending = s.pending ∧ (s.onLane l f).time = s.time ∧ (s.onLane l f).resetHeld = s.resetHeld
      ∧ (s.onLane l f).pins = s.pins ∧ (s.onLane l f).bank = s.bank ∧ (s.onLane l f).table = s.table
      ∧ (s.onLane l f).arbiter = s.arbiter ∧ (s.onLane l f).lanes = s.lanes.set l (f (s.lane l))
      ∧ (s.onLane l f).lines = s.lines ∧ (s.onLane l f).escort = s.escort ∧ (s.onLane l f).dispatch = s.dispatch
      ∧ (s.onLane l f).occupancy = s.occupancy ∧ (s.onLane l f).safety = s.safety ∧ (s.onLane l f).clock = s.clock
      ∧ (s.onLane l f).journal = s.journal ∧ (s.onLane l f).notices = s.notices ∧ (s.onLane l f).ports = s.ports
      ∧ (s.onLane l f).bus = s.bus ∧ (s.onLane l f).mail = s.mail :=
  ⟨rfl, rfl, rfl, rfl, rfl, rfl, rfl, rfl, rfl, rfl, rfl, rfl, rfl, rfl, rfl, rfl, rfl, rfl, rfl⟩

@[simp] theorem State.onLine_fields (s : State) (l : Lane) (f : LineUnit → LineUnit) :
    (s.onLine l f).pending = s.pending ∧ (s.onLine l f).time = s.time ∧ (s.onLine l f).resetHeld = s.resetHeld
      ∧ (s.onLine l f).pins = s.pins ∧ (s.onLine l f).bank = s.bank ∧ (s.onLine l f).table = s.table
      ∧ (s.onLine l f).arbiter = s.arbiter ∧ (s.onLine l f).lanes = s.lanes
      ∧ (s.onLine l f).lines = s.lines.set l (f (s.line l)) ∧ (s.onLine l f).escort = s.escort
      ∧ (s.onLine l f).dispatch = s.dispatch ∧ (s.onLine l f).occupancy = s.occupancy
      ∧ (s.onLine l f).safety = s.safety ∧ (s.onLine l f).clock = s.clock ∧ (s.onLine l f).journal = s.journal
      ∧ (s.onLine l f).notices = s.notices ∧ (s.onLine l f).ports = s.ports ∧ (s.onLine l f).bus = s.bus
      ∧ (s.onLine l f).mail = s.mail :=
  ⟨rfl, rfl, rfl, rfl, rfl, rfl, rfl, rfl, rfl, rfl, rfl, rfl, rfl, rfl, rfl, rfl, rfl, rfl, rfl⟩

@[simp] theorem State.onPort_fields (s : State) (p : Port) (f : PortUnit → PortUnit) :
    (s.onPort p f).pending = s.pending ∧ (s.onPort p f).time = s.time ∧ (s.onPort p f).resetHeld = s.resetHeld
      ∧ (s.onPort p f).pins = s.pins ∧ (s.onPort p f).bank = s.bank ∧ (s.onPort p f).table = s.table
      ∧ (s.onPort p f).arbiter = s.arbiter ∧ (s.onPort p f).lanes = s.lanes ∧ (s.onPort p f).lines = s.lines
      ∧ (s.onPort p f).escort = s.escort ∧ (s.onPort p f).dispatch = s.dispatch
      ∧ (s.onPort p f).occupancy = s.occupancy ∧ (s.onPort p f).safety = s.safety ∧ (s.onPort p f).clock = s.clock
      ∧ (s.onPort p f).journal = s.journal ∧ (s.onPort p f).notices = s.notices
      ∧ (s.onPort p f).ports = s.ports.set p (f (s.port p)) ∧ (s.onPort p f).bus = s.bus
      ∧ (s.onPort p f).mail = s.mail :=
  ⟨rfl, rfl, rfl, rfl, rfl, rfl, rfl, rfl, rfl, rfl, rfl, rfl, rfl, rfl, rfl, rfl, rfl, rfl, rfl⟩

@[simp] theorem State.onMail_fields (s : State) (f : Mail → Mail) :
    (s.onMail f).pending = s.pending ∧ (s.onMail f).time = s.time ∧ (s.onMail f).resetHeld = s.resetHeld
      ∧ (s.onMail f).pins = s.pins ∧ (s.onMail f).bank = s.bank ∧ (s.onMail f).table = s.table
      ∧ (s.onMail f).arbiter = s.arbiter ∧ (s.onMail f).lanes = s.lanes ∧ (s.onMail f).lines = s.lines
      ∧ (s.onMail f).escort = s.escort ∧ (s.onMail f).dispatch = s.dispatch ∧ (s.onMail f).occupancy = s.occupancy
      ∧ (s.onMail f).safety = s.safety ∧ (s.onMail f).clock = s.clock ∧ (s.onMail f).journal = s.journal
      ∧ (s.onMail f).notices = s.notices ∧ (s.onMail f).ports = s.ports ∧ (s.onMail f).bus = s.bus
      ∧ (s.onMail f).mail = f s.mail :=
  ⟨rfl, rfl, rfl, rfl, rfl, rfl, rfl, rfl, rfl, rfl, rfl, rfl, rfl, rfl, rfl, rfl, rfl, rfl, rfl⟩

@[simp] theorem State.onTable_fields (s : State) (f : TableUnit → TableUnit) :
    (s.onTable f).pending = s.pending ∧ (s.onTable f).time = s.time ∧ (s.onTable f).resetHeld = s.resetHeld
      ∧ (s.onTable f).pins = s.pins ∧ (s.onTable f).bank = s.bank ∧ (s.onTable f).table = f s.table
      ∧ (s.onTable f).arbiter = s.arbiter ∧ (s.onTable f).lanes = s.lanes ∧ (s.onTable f).lines = s.lines
      ∧ (s.onTable f).escort = s.escort ∧ (s.onTable f).dispatch = s.dispatch
      ∧ (s.onTable f).occupancy = s.occupancy ∧ (s.onTable f).safety = s.safety ∧ (s.onTable f).clock = s.clock
      ∧ (s.onTable f).journal = s.journal ∧ (s.onTable f).notices = s.notices ∧ (s.onTable f).ports = s.ports
      ∧ (s.onTable f).bus = s.bus ∧ (s.onTable f).mail = s.mail :=
  ⟨rfl, rfl, rfl, rfl, rfl, rfl, rfl, rfl, rfl, rfl, rfl, rfl, rfl, rfl, rfl, rfl, rfl, rfl, rfl⟩

@[simp] theorem State.onArbiter_fields (s : State) (f : Arbiter → Arbiter) :
    (s.onArbiter f).pending = s.pending ∧ (s.onArbiter f).time = s.time ∧ (s.onArbiter f).resetHeld = s.resetHeld
      ∧ (s.onArbiter f).pins = s.pins ∧ (s.onArbiter f).bank = s.bank ∧ (s.onArbiter f).table = s.table
      ∧ (s.onArbiter f).arbiter = f s.arbiter ∧ (s.onArbiter f).lanes = s.lanes ∧ (s.onArbiter f).lines = s.lines
      ∧ (s.onArbiter f).escort = s.escort ∧ (s.onArbiter f).dispatch = s.dispatch
      ∧ (s.onArbiter f).occupancy = s.occupancy ∧ (s.onArbiter f).safety = s.safety
      ∧ (s.onArbiter f).clock = s.clock ∧ (s.onArbiter f).journal = s.journal ∧ (s.onArbiter f).notices = s.notices
      ∧ (s.onArbiter f).ports = s.ports ∧ (s.onArbiter f).bus = s.bus ∧ (s.onArbiter f).mail = s.mail :=
  ⟨rfl, rfl, rfl, rfl, rfl, rfl, rfl, rfl, rfl, rfl, rfl, rfl, rfl, rfl, rfl, rfl, rfl, rfl, rfl⟩

@[simp] theorem onEscort_fields (s : State) (f : List EscortRec → List EscortRec) :
    (onEscort f s).pending = s.pending ∧ (onEscort f s).time = s.time ∧ (onEscort f s).resetHeld = s.resetHeld
      ∧ (onEscort f s).pins = s.pins ∧ (onEscort f s).bank = s.bank ∧ (onEscort f s).table = s.table
      ∧ (onEscort f s).arbiter = s.arbiter ∧ (onEscort f s).lanes = s.lanes ∧ (onEscort f s).lines = s.lines
      ∧ (onEscort f s).escort = { s.escort with list := f s.escort.list } ∧ (onEscort f s).dispatch = s.dispatch
      ∧ (onEscort f s).occupancy = s.occupancy ∧ (onEscort f s).safety = s.safety ∧ (onEscort f s).clock = s.clock
      ∧ (onEscort f s).journal = s.journal ∧ (onEscort f s).notices = s.notices ∧ (onEscort f s).ports = s.ports
      ∧ (onEscort f s).bus = s.bus ∧ (onEscort f s).mail = s.mail :=
  ⟨rfl, rfl, rfl, rfl, rfl, rfl, rfl, rfl, rfl, rfl, rfl, rfl, rfl, rfl, rfl, rfl, rfl, rfl, rfl⟩

@[simp] theorem onSafety_fields (s : State) (f : SafetyUnit → SafetyUnit) :
    (onSafety f s).pending = s.pending ∧ (onSafety f s).time = s.time ∧ (onSafety f s).resetHeld = s.resetHeld
      ∧ (onSafety f s).pins = s.pins ∧ (onSafety f s).bank = s.bank ∧ (onSafety f s).table = s.table
      ∧ (onSafety f s).arbiter = s.arbiter ∧ (onSafety f s).lanes = s.lanes ∧ (onSafety f s).lines = s.lines
      ∧ (onSafety f s).escort = s.escort ∧ (onSafety f s).dispatch = s.dispatch
      ∧ (onSafety f s).occupancy = s.occupancy ∧ (onSafety f s).safety = f s.safety
      ∧ (onSafety f s).clock = s.clock ∧ (onSafety f s).journal = s.journal ∧ (onSafety f s).notices = s.notices
      ∧ (onSafety f s).ports = s.ports ∧ (onSafety f s).bus = s.bus ∧ (onSafety f s).mail = s.mail :=
  ⟨rfl, rfl, rfl, rfl, rfl, rfl, rfl, rfl, rfl, rfl, rfl, rfl, rfl, rfl, rfl, rfl, rfl, rfl, rfl⟩

@[simp] theorem onClock_fields (s : State) (f : ClockUnit → ClockUnit) :
    (onClock f s).pending = s.pending ∧ (onClock f s).time = s.time ∧ (onClock f s).resetHeld = s.resetHeld
      ∧ (onClock f s).pins = s.pins ∧ (onClock f s).bank = s.bank ∧ (onClock f s).table = s.table
      ∧ (onClock f s).arbiter = s.arbiter ∧ (onClock f s).lanes = s.lanes ∧ (onClock f s).lines = s.lines
      ∧ (onClock f s).escort = s.escort ∧ (onClock f s).dispatch = s.dispatch
      ∧ (onClock f s).occupancy = s.occupancy ∧ (onClock f s).safety = s.safety ∧ (onClock f s).clock = f s.clock
      ∧ (onClock f s).journal = s.journal ∧ (onClock f s).notices = s.notices ∧ (onClock f s).ports = s.ports
      ∧ (onClock f s).bus = s.bus ∧ (onClock f s).mail = s.mail :=
  ⟨rfl, rfl, rfl, rfl, rfl, rfl, rfl, rfl, rfl, rfl, rfl, rfl, rfl, rfl, rfl, rfl, rfl, rfl, rfl⟩

@[simp] theorem onBus_fields (s : State) (f : BusUnit → BusUnit) :
    (onBus f s).pending = s.pending ∧ (onBus f s).time = s.time ∧ (onBus f s).resetHeld = s.resetHeld
      ∧ (onBus f s).pins = s.pins ∧ (onBus f s).bank = s.bank ∧ (onBus f s).table = s.table
      ∧ (onBus f s).arbiter = s.arbiter ∧ (onBus f s).lanes = s.lanes ∧ (onBus f s).lines = s.lines
      ∧ (onBus f s).escort = s.escort ∧ (onBus f s).dispatch = s.dispatch ∧ (onBus f s).occupancy = s.occupancy
      ∧ (onBus f s).safety = s.safety ∧ (onBus f s).clock = s.clock ∧ (onBus f s).journal = s.journal
      ∧ (onBus f s).notices = s.notices ∧ (onBus f s).ports = s.ports ∧ (onBus f s).bus = f s.bus
      ∧ (onBus f s).mail = s.mail :=
  ⟨rfl, rfl, rfl, rfl, rfl, rfl, rfl, rfl, rfl, rfl, rfl, rfl, rfl, rfl, rfl, rfl, rfl, rfl, rfl⟩

@[simp] theorem onNotices_fields (s : State) (p : Port) (f : NoticeUnit → NoticeUnit) :
    (onNotices p f s).pending = s.pending ∧ (onNotices p f s).time = s.time
      ∧ (onNotices p f s).resetHeld = s.resetHeld ∧ (onNotices p f s).pins = s.pins
      ∧ (onNotices p f s).bank = s.bank ∧ (onNotices p f s).table = s.table ∧ (onNotices p f s).arbiter = s.arbiter
      ∧ (onNotices p f s).lanes = s.lanes ∧ (onNotices p f s).lines = s.lines ∧ (onNotices p f s).escort = s.escort
      ∧ (onNotices p f s).dispatch = s.dispatch ∧ (onNotices p f s).occupancy = s.occupancy
      ∧ (onNotices p f s).safety = s.safety ∧ (onNotices p f s).clock = s.clock
      ∧ (onNotices p f s).journal = s.journal ∧ (onNotices p f s).notices = s.notices.set p (f (s.notices.get p))
      ∧ (onNotices p f s).ports = s.ports ∧ (onNotices p f s).bus = s.bus ∧ (onNotices p f s).mail = s.mail :=
  ⟨rfl, rfl, rfl, rfl, rfl, rfl, rfl, rfl, rfl, rfl, rfl, rfl, rfl, rfl, rfl, rfl, rfl, rfl, rfl⟩

@[simp] theorem State.onLane_reads (s : State) (l : Lane) (f : LaneUnit → LaneUnit) :
    (∀ m, (s.onLane l f).line m = s.line m) ∧ (∀ q, (s.onLane l f).port q = s.port q)
      ∧ (∀ q, (s.onLane l f).request q = s.request q)
      ∧ (s.onLane l f).stamp = s.stamp ∧ (∀ n, (s.onLane l f).after n = s.after n) :=
  ⟨fun _ => rfl, fun _ => rfl, fun _ => rfl, rfl, fun _ => rfl⟩

@[simp] theorem State.onLine_reads (s : State) (l : Lane) (f : LineUnit → LineUnit) :
    (∀ m, (s.onLine l f).lane m = s.lane m) ∧ (∀ q, (s.onLine l f).port q = s.port q)
      ∧ (∀ q, (s.onLine l f).request q = s.request q)
      ∧ (s.onLine l f).stamp = s.stamp ∧ (∀ n, (s.onLine l f).after n = s.after n) :=
  ⟨fun _ => rfl, fun _ => rfl, fun _ => rfl, rfl, fun _ => rfl⟩

@[simp] theorem State.onPort_reads (s : State) (p : Port) (f : PortUnit → PortUnit) :
    (∀ m, (s.onPort p f).lane m = s.lane m) ∧ (∀ m, (s.onPort p f).line m = s.line m)
      ∧ (s.onPort p f).stamp = s.stamp
      ∧ (∀ n, (s.onPort p f).after n = s.after n) :=
  ⟨fun _ => rfl, fun _ => rfl, rfl, fun _ => rfl⟩

@[simp] theorem State.onMail_reads (s : State) (f : Mail → Mail) :
    (∀ m, (s.onMail f).lane m = s.lane m) ∧ (∀ m, (s.onMail f).line m = s.line m)
      ∧ (∀ q, (s.onMail f).port q = s.port q) ∧ (∀ q, (s.onMail f).request q = s.request q)
      ∧ (s.onMail f).stamp = s.stamp
      ∧ (∀ n, (s.onMail f).after n = s.after n) :=
  ⟨fun _ => rfl, fun _ => rfl, fun _ => rfl, fun _ => rfl, rfl, fun _ => rfl⟩

@[simp] theorem State.onTable_reads (s : State) (f : TableUnit → TableUnit) :
    (∀ m, (s.onTable f).lane m = s.lane m) ∧ (∀ m, (s.onTable f).line m = s.line m)
      ∧ (∀ q, (s.onTable f).port q = s.port q) ∧ (∀ q, (s.onTable f).request q = s.request q)
      ∧ (s.onTable f).stamp = s.stamp
      ∧ (∀ n, (s.onTable f).after n = s.after n) :=
  ⟨fun _ => rfl, fun _ => rfl, fun _ => rfl, fun _ => rfl, rfl, fun _ => rfl⟩

@[simp] theorem State.onArbiter_reads (s : State) (f : Arbiter → Arbiter) :
    (∀ m, (s.onArbiter f).lane m = s.lane m) ∧ (∀ m, (s.onArbiter f).line m = s.line m)
      ∧ (∀ q, (s.onArbiter f).port q = s.port q) ∧ (∀ q, (s.onArbiter f).request q = s.request q)
      ∧ (s.onArbiter f).stamp = s.stamp ∧ (∀ n, (s.onArbiter f).after n = s.after n) :=
  ⟨fun _ => rfl, fun _ => rfl, fun _ => rfl, fun _ => rfl, rfl, fun _ => rfl⟩

@[simp] theorem onEscort_reads (s : State) (f : List EscortRec → List EscortRec) :
    (∀ m, (onEscort f s).lane m = s.lane m) ∧ (∀ m, (onEscort f s).line m = s.line m)
      ∧ (∀ q, (onEscort f s).port q = s.port q) ∧ (∀ q, (onEscort f s).request q = s.request q)
      ∧ (onEscort f s).stamp = s.stamp
      ∧ (∀ n, (onEscort f s).after n = s.after n) :=
  ⟨fun _ => rfl, fun _ => rfl, fun _ => rfl, fun _ => rfl, rfl, fun _ => rfl⟩

@[simp] theorem onSafety_reads (s : State) (f : SafetyUnit → SafetyUnit) :
    (∀ m, (onSafety f s).lane m = s.lane m) ∧ (∀ m, (onSafety f s).line m = s.line m)
      ∧ (∀ q, (onSafety f s).port q = s.port q) ∧ (∀ q, (onSafety f s).request q = s.request q)
      ∧ (onSafety f s).stamp = s.stamp
      ∧ (∀ n, (onSafety f s).after n = s.after n) :=
  ⟨fun _ => rfl, fun _ => rfl, fun _ => rfl, fun _ => rfl, rfl, fun _ => rfl⟩

@[simp] theorem onClock_reads (s : State) (f : ClockUnit → ClockUnit) :
    (∀ m, (onClock f s).lane m = s.lane m) ∧ (∀ m, (onClock f s).line m = s.line m)
      ∧ (∀ q, (onClock f s).port q = s.port q)
      ∧ (∀ q, (onClock f s).request q = s.request q) ∧ (∀ n, (onClock f s).after n = s.after n) :=
  ⟨fun _ => rfl, fun _ => rfl, fun _ => rfl, fun _ => rfl, fun _ => rfl⟩

@[simp] theorem onBus_reads (s : State) (f : BusUnit → BusUnit) :
    (∀ m, (onBus f s).lane m = s.lane m) ∧ (∀ m, (onBus f s).line m = s.line m)
      ∧ (∀ q, (onBus f s).port q = s.port q) ∧ (∀ q, (onBus f s).request q = s.request q)
      ∧ (onBus f s).stamp = s.stamp
      ∧ (∀ n, (onBus f s).after n = s.after n) :=
  ⟨fun _ => rfl, fun _ => rfl, fun _ => rfl, fun _ => rfl, rfl, fun _ => rfl⟩

@[simp] theorem onNotices_reads (s : State) (p : Port) (f : NoticeUnit → NoticeUnit) :
    (∀ m, (onNotices p f s).lane m = s.lane m) ∧ (∀ m, (onNotices p f s).line m = s.line m)
      ∧ (∀ q, (onNotices p f s).port q = s.port q) ∧ (∀ q, (onNotices p f s).request q = s.request q)
      ∧ (onNotices p f s).stamp = s.stamp ∧ (∀ n, (onNotices p f s).after n = s.after n) :=
  ⟨fun _ => rfl, fun _ => rfl, fun _ => rfl, fun _ => rfl, rfl, fun _ => rfl⟩

end Sys2Proof.Machine
end

