-- ==== Sys2Proof/Laws/Frames.lean ====
section
/-!
SUPPORT. What each shared operation leaves as it was: for a block that the operation does not touch, the state after it is
the same there exactly when the state before it is. The lemmas compose by rewriting.
-/
namespace Sys2Proof.Machine

/-! ## The lists of blocks -/

@[simp] theorem mem_everyLane {b : Block} : b ∈ everyLane ↔ (∃ l, b = .lane l) ∨ (∃ l, b = .line l) := by
  constructor
  · intro h
    simp only [everyLane, List.mem_append, List.mem_map] at h
    rcases h with ⟨l, _, h⟩ | ⟨l, _, h⟩
    · exact Or.inl ⟨l, h.symm⟩
    · exact Or.inr ⟨l, h.symm⟩
  · rintro (⟨l, rfl⟩ | ⟨l, rfl⟩) <;> cases l <;> decide

@[simp] theorem mem_everyPort {b : Block} : b ∈ everyPort ↔ ∃ p, b = .port p := by
  constructor
  · intro h
    simp only [everyPort, List.mem_map] at h
    obtain ⟨p, _, h⟩ := h; exact ⟨p, h.symm⟩
  · rintro ⟨p, rfl⟩; cases p <;> decide

@[simp] theorem mem_anyReply {b : Block} : b ∈ anyReply ↔ ∃ p, b = .replies p := by
  constructor
  · intro h
    simp only [anyReply, List.mem_map] at h
    obtain ⟨p, _, h⟩ := h; exact ⟨p, h.symm⟩
  · rintro ⟨p, rfl⟩; cases p <;> decide

@[simp] theorem mem_lanesOnly {b : Block} : b ∈ Lane.all.map Block.lane ↔ ∃ l, b = .lane l := by
  constructor
  · intro h
    simp only [List.mem_map] at h
    obtain ⟨p, _, h⟩ := h; exact ⟨p, h.symm⟩
  · rintro ⟨l, rfl⟩; cases l <;> decide

/-- Every block stands in the resets' list but the queue and the time base. -/
theorem mem_everyBlock {b : Block} (h1 : b ≠ .pending) (h2 : b ≠ .time) : b ∈ everyBlock := by
  cases b with
  | lane l | line l => cases l <;> decide
  | notices p | port p | replies p => cases p <;> decide
  | pending => exact absurd rfl h1
  | time => exact absurd rfl h2
  | _ => decide

/-! ## The updates -/

@[simp] theorem Block.same_refl (b : Block) (s : State) : b.same s s := by cases b <;> rfl

variable {b : Block} {s t : State}

@[simp] theorem Block.same_ite {a : Prop} [Decidable a] {x y : State} :
    b.same s (if a then x else y) ↔ if a then b.same s x else b.same s y := by split <;> rfl

/-- What holds of the effect of an event holds of its outcome, taken or not. -/
theorem Block.same_running {u : State} (h : running s u = .next t) (k : b.same s u) : b.same s t := by
  unfold running at h
  split at h <;> (injection h with h; subst h)
  · simp
  · exact k

@[simp] theorem State.onLane_keeps {l : Lane} {f : LaneUnit → LaneUnit} (h : b ≠ .lane l) :
    b.same s (t.onLane l f) ↔ b.same s t := by
  cases b with
  | lane m => simp only [Block.same]; rw [State.lane_onLane_ne _ _ (by rintro rfl; exact h rfl)]
  | _ => exact Iff.rfl

@[simp] theorem State.onLine_keeps {l : Lane} {f : LineUnit → LineUnit} (h : b ≠ .line l) :
    b.same s (t.onLine l f) ↔ b.same s t := by
  cases b with
  | line m => simp only [Block.same]; rw [State.line_onLine_ne _ _ (by rintro rfl; exact h rfl)]
  | _ => exact Iff.rfl

@[simp] theorem State.onPort_keeps {p : Port} {f : PortUnit → PortUnit} (h : b ≠ .port p) :
    b.same s (t.onPort p f) ↔ b.same s t := by
  cases b with
  | port q => simp only [Block.same]; rw [State.port_onPort_ne _ _ (by rintro rfl; exact h rfl)]
  | _ => exact Iff.rfl

@[simp] theorem onNotices_keeps {p : Port} {f : NoticeUnit → NoticeUnit} (h : b ≠ .notices p) :
    b.same s (onNotices p f t) ↔ b.same s t := by
  cases b with
  | notices q => simp only [Block.same, onNotices]; rw [PerPort.get_set_ne _ _ (by rintro rfl; exact h rfl)]
  | _ => exact Iff.rfl

@[simp] theorem State.onTable_keeps {f : TableUnit → TableUnit} (h : b ≠ .table) :
    b.same s (t.onTable f) ↔ b.same s t := by
  cases b with | table => exact absurd rfl h | _ => exact Iff.rfl

@[simp] theorem State.onArbiter_keeps {f : Arbiter → Arbiter} (h : b ≠ .arbiter) :
    b.same s (t.onArbiter f) ↔ b.same s t := by
  cases b with | arbiter => exact absurd rfl h | _ => exact Iff.rfl

@[simp] theorem onEscort_keeps {f : List EscortRec → List EscortRec} (h : b ≠ .escort) :
    b.same s (onEscort f t) ↔ b.same s t := by
  cases b with | escort => exact absurd rfl h | _ => exact Iff.rfl

@[simp] theorem onSafety_keeps {f : SafetyUnit → SafetyUnit} (h : b ≠ .safety) :
    b.same s (onSafety f t) ↔ b.same s t := by
  cases b with | safety => exact absurd rfl h | _ => exact Iff.rfl

@[simp] theorem onClock_keeps {f : ClockUnit → ClockUnit} (h : b ≠ .clock) :
    b.same s (onClock f t) ↔ b.same s t := by
  cases b with | clock => exact absurd rfl h | _ => exact Iff.rfl

@[simp] theorem onBus_keeps {f : BusUnit → BusUnit} (h : b ≠ .bus) : b.same s (onBus f t) ↔ b.same s t := by
  cases b with | bus => exact absurd rfl h | _ => exact Iff.rfl

@[simp] theorem mail_records_keeps {g : Mail → List (Source × Record)} (h : b ≠ .records) :
    b.same s (t.onMail (fun m => { m with records := g m })) ↔ b.same s t := by
  cases b with | records => exact absurd rfl h | _ => exact Iff.rfl

@[simp] theorem mail_notices_keeps {g : Mail → List NoticeMsg} (h : b ≠ .noticeMail) :
    b.same s (t.onMail (fun m => { m with notices := g m })) ↔ b.same s t := by
  cases b with | noticeMail => exact absurd rfl h | _ => exact Iff.rfl

@[simp] theorem mail_reports_keeps {g : Mail → List (Lane × LaneReport)} (h : b ≠ .reports) :
    b.same s (t.onMail (fun m => { m with reports := g m })) ↔ b.same s t := by
  cases b with | reports => exact absurd rfl h | _ => exact Iff.rfl

@[simp] theorem mail_overtakes_keeps {g : Mail → List Lane} (h : b ≠ .overtakes) :
    b.same s (t.onMail (fun m => { m with overtakes := g m })) ↔ b.same s t := by
  cases b with | overtakes => exact absurd rfl h | _ => exact Iff.rfl

@[simp] theorem mail_lockdowns_keeps {g : Mail → List Lane} (h : b ≠ .lockdowns) :
    b.same s (t.onMail (fun m => { m with lockdowns := g m })) ↔ b.same s t := by
  cases b with | lockdowns => exact absurd rfl h | _ => exact Iff.rfl

@[simp] theorem mail_withdrawals_keeps {g : Mail → List Tag} (h : b ≠ .withdrawals) :
    b.same s (t.onMail (fun m => { m with withdrawals := g m })) ↔ b.same s t := by
  cases b with | withdrawals => exact absurd rfl h | _ => exact Iff.rfl

@[simp] theorem mail_releases_keeps {g : Mail → List (Lane × Cred)} (h : b ≠ .releases) :
    b.same s (t.onMail (fun m => { m with releases := g m })) ↔ b.same s t := by
  cases b with | releases => exact absurd rfl h | _ => exact Iff.rfl

@[simp] theorem mail_indications_keeps {g : Mail → List (Tag × Indication)} (h : b ≠ .indications) :
    b.same s (t.onMail (fun m => { m with indications := g m })) ↔ b.same s t := by
  cases b with | indications => exact absurd rfl h | _ => exact Iff.rfl

@[simp] theorem mail_holds_keeps {g : Mail → List (Lane × Bool)} (h : b ≠ .holds) :
    b.same s (t.onMail (fun m => { m with holds := g m })) ↔ b.same s t := by
  cases b with | holds => exact absurd rfl h | _ => exact Iff.rfl

@[simp] theorem mail_actions_keeps {g : Mail → List (Lane × ActiveAction)} (h : b ≠ .actions) :
    b.same s (t.onMail (fun m => { m with actions := g m })) ↔ b.same s t := by
  cases b with | actions => exact absurd rfl h | _ => exact Iff.rfl

@[simp] theorem mail_results_keeps {g : Mail → List PostingResult} (h : b ≠ .results) :
    b.same s (t.onMail (fun m => { m with results := g m })) ↔ b.same s t := by
  cases b with | results => exact absurd rfl h | _ => exact Iff.rfl

@[simp] theorem mail_sense_keeps {g : Mail → List (Lane × SenseItem)} (h : b ≠ .sense) :
    b.same s (t.onMail (fun m => { m with sense := g m })) ↔ b.same s t := by
  cases b with | sense => exact absurd rfl h | _ => exact Iff.rfl

@[simp] theorem mail_passages_keeps {g : Mail → List CountedPassage} (h : b ≠ .passages) :
    b.same s (t.onMail (fun m => { m with passages := g m })) ↔ b.same s t := by
  cases b with | passages => exact absurd rfl h | _ => exact Iff.rfl

@[simp] theorem mail_sponsors_keeps {g : Mail → List HandedPassage} (h : b ≠ .sponsors) :
    b.same s (t.onMail (fun m => { m with sponsors := g m })) ↔ b.same s t := by
  cases b with | sponsors => exact absurd rfl h | _ => exact Iff.rfl

@[simp] theorem mail_escortEnds_keeps {g : Mail → List EscortEnd} (h : b ≠ .escortEnds) :
    b.same s (t.onMail (fun m => { m with escortEnds := g m })) ↔ b.same s t := by
  cases b with | escortEnds => exact absurd rfl h | _ => exact Iff.rfl

@[simp] theorem mail_escortLockdowns_keeps {g : Mail → Nat} (h : b ≠ .escortLockdowns) :
    b.same s (t.onMail (fun m => { m with escortLockdowns := g m })) ↔ b.same s t := by
  cases b with | escortLockdowns => exact absurd rfl h | _ => exact Iff.rfl

@[simp] theorem mail_escortClears_keeps {g : Mail → Nat} (h : b ≠ .escortClears) :
    b.same s (t.onMail (fun m => { m with escortClears := g m })) ↔ b.same s t := by
  cases b with | escortClears => exact absurd rfl h | _ => exact Iff.rfl

@[simp] theorem mail_beacons_keeps {g : Mail → List Secs} (h : b ≠ .beacons) :
    b.same s (t.onMail (fun m => { m with beacons := g m })) ↔ b.same s t := by
  cases b with | beacons => exact absurd rfl h | _ => exact Iff.rfl

@[simp] theorem mail_amnestyDone_keeps {g : Mail → Nat} (h : b ≠ .amnestyDone) :
    b.same s (t.onMail (fun m => { m with amnestyDone := g m })) ↔ b.same s t := by
  cases b with | amnestyDone => exact absurd rfl h | _ => exact Iff.rfl

@[simp] theorem with_escort_keeps {x : EscortUnit} (h : b ≠ .escort) :
    b.same s { t with escort := x } ↔ b.same s t := by
  cases b with | escort => exact absurd rfl h | _ => exact Iff.rfl

@[simp] theorem with_dispatch_keeps {x : DispatchUnit} (h : b ≠ .dispatch) :
    b.same s { t with dispatch := x } ↔ b.same s t := by
  cases b with | dispatch => exact absurd rfl h | _ => exact Iff.rfl

@[simp] theorem with_occupancy_keeps {x : OccupancyUnit} (h : b ≠ .occupancy) :
    b.same s { t with occupancy := x } ↔ b.same s t := by
  cases b with | occupancy => exact absurd rfl h | _ => exact Iff.rfl

@[simp] theorem with_journal_keeps {x : JournalUnit} (h : b ≠ .journal) :
    b.same s { t with journal := x } ↔ b.same s t := by
  cases b with | journal => exact absurd rfl h | _ => exact Iff.rfl

@[simp] theorem with_bank_keeps {x : BankUnit} (h : b ≠ .bank) :
    b.same s { t with bank := x } ↔ b.same s t := by
  cases b with | bank => exact absurd rfl h | _ => exact Iff.rfl

@[simp] theorem with_pins_keeps {x : Pins} (h : b ≠ .pins) :
    b.same s { t with pins := x } ↔ b.same s t := by
  cases b with | pins => exact absurd rfl h | _ => exact Iff.rfl

@[simp] theorem with_time_keeps {x : Nat} (h : b ≠ .time) :
    b.same s { t with time := x } ↔ b.same s t := by
  cases b with | time => exact absurd rfl h | _ => exact Iff.rfl

@[simp] theorem mail_replies_keeps {p : Port} {x : Option (List Byte)} (h : b ≠ .replies p) :
    b.same s (t.onMail (fun m => { m with replies := m.replies.set p x })) ↔ b.same s t := by
  cases b with
  | replies q => simp only [Block.same, State.onMail]; rw [PerPort.get_set_ne _ _ (by rintro rfl; exact h rfl)]
  | _ => exact Iff.rfl


theorem mail_lockdowns_both_keeps {g : Mail → List Lane} {g' : Mail → Nat} (h : b ≠ .lockdowns)
    (h' : b ≠ .escortLockdowns) :
    b.same s (t.onMail (fun m => { m with lockdowns := g m, escortLockdowns := g' m })) ↔ b.same s t := by
  cases b with | lockdowns => exact absurd rfl h | escortLockdowns => exact absurd rfl h' | _ => exact Iff.rfl

theorem mail_passages_both_keeps {g : Mail → List CountedPassage} {g' : Mail → List HandedPassage} (h : b ≠ .passages)
    (h' : b ≠ .sponsors) :
    b.same s (t.onMail (fun m => { m with passages := g m, sponsors := g' m })) ↔ b.same s t := by
  cases b with | passages => exact absurd rfl h | sponsors => exact absurd rfl h' | _ => exact Iff.rfl

variable {l : Lane} {x : Slot} {p : Port} {w : Window} {o : WinOutcome} {i : Indication} {rd : Reader} {e : Entry}
  {d : Direction} {c : Cred} {st : Status} {body : List Byte} {r : Record}

/-! ## Messages, requests and replies -/

@[simp] theorem handOver_keeps {src : Source} (h : b ∉ [.records]) :
    b.same s (handOver src r t) ↔ b.same s t := by
  simp at h
  unfold handOver
  simp [h]

@[simp] theorem notify_keeps {n : Notice} (h : b ∉ [.noticeMail]) :
    b.same s (notify p n t) ↔ b.same s t := by
  simp at h
  unfold notify
  simp [h]

@[simp] theorem notifyAll_keeps {n : Notice} (h : b ∉ [.noticeMail]) :
    b.same s (notifyAll n t) ↔ b.same s t := by
  simp at h
  unfold notifyAll
  simp [h]

@[simp] theorem reportLevel_keeps {n : Notice} {v : Bool} (h : b ∉ [.noticeMail]) :
    b.same s (reportLevel p n v t) ↔ b.same s t := by
  simp at h
  unfold reportLevel
  simp [h]

@[simp] theorem report_keeps {q : LaneReport} (h : b ∉ [.reports]) :
    b.same s (report l q t) ↔ b.same s t := by
  simp at h
  unfold report
  simp [h]

@[simp] theorem sendWithdrawal_keeps {g : Tag} (h : b ∉ [.withdrawals]) :
    b.same s (sendWithdrawal g t) ↔ b.same s t := by
  simp at h
  unfold sendWithdrawal
  simp [h]

@[simp] theorem tellEscort_keeps {q : EscortEnd} (h : b ∉ [.escortEnds]) :
    b.same s (tellEscort q t) ↔ b.same s t := by
  simp at h
  unfold tellEscort
  simp [h]

@[simp] theorem indicate_keeps {g : Tag} (h : b ∉ [.indications]) :
    b.same s (indicate g i t) ↔ b.same s t := by
  simp at h
  unfold indicate
  simp [h]

@[simp] theorem takeRequest_keeps (h : b ∉ [.port p]) :
    b.same s (takeRequest p t) ↔ b.same s t := by
  simp at h
  unfold takeRequest
  simp [h]

@[simp] theorem answer_keeps (h : b ∉ [.replies p]) :
    b.same s (answer p st body t) ↔ b.same s t := by
  simp at h
  unfold answer
  simp [h]

/-! ## The arbiter and the Permit Table -/

@[simp] theorem served_keeps {q : Claimant} (h : b ∉ [.arbiter]) :
    b.same s (served q t) ↔ b.same s t := by
  simp at h
  unfold served
  simp [h]

@[simp] theorem portServed_keeps (h : b ∉ [.arbiter]) :
    b.same s (portServed p t) ↔ b.same s t := by
  simp at h
  unfold portServed
  try dsimp only
  (repeat' split) <;> simp [h]

@[simp] theorem popFirst_keeps (h : b ∉ [.arbiter]) :
    b.same s (popFirst t) ↔ b.same s t := by
  simp at h
  unfold popFirst
  simp [h]

@[simp] theorem popSecond_keeps (h : b ∉ [.arbiter]) :
    b.same s (popSecond t) ↔ b.same s t := by
  simp at h
  unfold popSecond
  simp [h]

@[simp] theorem claimFirst_keeps {q : FirstOp} (h : b ∉ [.arbiter]) :
    b.same s (claimFirst q t) ↔ b.same s t := by
  simp at h
  unfold claimFirst
  simp [h]

@[simp] theorem claimSecond_keeps {q : SecondOp} (h : b ∉ [.arbiter]) :
    b.same s (claimSecond q t) ↔ b.same s t := by
  simp at h
  unfold claimSecond
  simp [h]

@[simp] theorem onEntry_keeps {f : Entry → Entry} (h : b ∉ [.table]) :
    b.same s (onEntry c f t) ↔ b.same s t := by
  simp at h
  unfold onEntry
  simp [h]

@[simp] theorem addRef_keeps (h : b ∉ [.table]) :
    b.same s (addRef c t) ↔ b.same s t := by
  simp at h
  unfold addRef
  simp [h]

@[simp] theorem dropRef_keeps (h : b ∉ [.table]) :
    b.same s (dropRef c t) ↔ b.same s t := by
  simp at h
  unfold dropRef
  simp [h]

@[simp] theorem removeEntry_keeps (h : b ∉ [.table, .escortEnds]) :
    b.same s (removeEntry e t) ↔ b.same s t := by
  simp at h
  unfold removeEntry
  try dsimp only
  (repeat' split) <;> simp [h]

/-! ## The lanes -/

@[simp] theorem onWindow_keeps {g : Tag} {f : Window → Window} (h : b ∉ [.lane l]) :
    b.same s (onWindow l g f t) ↔ b.same s t := by
  simp at h
  unfold onWindow
  simp [h]

@[simp] theorem ask_keeps (h : b ∉ [.lane l]) :
    b.same s (ask l rd i t) ↔ b.same s t := by
  simp at h
  unfold ask
  simp [h]

@[simp] theorem askBoth_keeps (h : b ∉ [.lane l]) :
    b.same s (askBoth l i t) ↔ b.same s t := by
  simp at h
  unfold askBoth
  simp [h]

@[simp] theorem askEscort_keeps (h : b ∉ [.lane l]) :
    b.same s (askEscort l i t) ↔ b.same s t := by
  simp at h
  unfold askEscort
  try dsimp only
  (repeat' split) <;> simp [h]

@[simp] theorem showNow_keeps (h : b ∉ [.lane l, .line l]) :
    b.same s (showNow l rd i t) ↔ b.same s t := by
  simp at h
  unfold showNow
  simp [h]

@[simp] theorem settleDisplay_keeps (h : b ∉ [.lane l, .line l]) :
    b.same s (settleDisplay l rd t) ↔ b.same s t := by
  simp at h
  unfold settleDisplay
  try dsimp only
  (repeat' split) <;> simp [h]

@[simp] theorem clearDisplay_keeps (h : b ∉ [.lane l, .line l]) :
    b.same s (clearDisplay l rd t) ↔ b.same s t := by
  simp at h
  unfold clearDisplay
  simp [h]

@[simp] theorem clearDisplays_keeps (h : b ∉ [.lane l, .line l]) :
    b.same s (clearDisplays l t) ↔ b.same s t := by
  simp at h
  unfold clearDisplays
  simp [h]

@[simp] theorem askEnd_keeps (h : b ∉ [.lane l]) :
    b.same s (askEnd l w o t) ↔ b.same s t := by
  simp at h
  unfold askEnd
  try dsimp only
  (repeat' split) <;> simp [h]

@[simp] theorem endWindow_keeps (h : b ∉ [.lane l, .arbiter]) :
    b.same s (endWindow l w o t) ↔ b.same s t := by
  simp at h
  unfold endWindow
  try dsimp only
  (repeat' split) <;> simp [h]

@[simp] theorem endWindows_keeps {ws : List Window} (h : b ∉ [.lane l, .arbiter]) :
    b.same s (endWindows l o ws t) ↔ b.same s t := by
  induction ws generalizing t with
  | nil => rfl
  | cons w r ih => rw [endWindows, ih, endWindow_keeps h]

@[simp] theorem endWhere_keeps {f : Window → Bool} (h : b ∉ [.lane l, .arbiter]) :
    b.same s (endWhere l f o t) ↔ b.same s t := by
  simp at h
  unfold endWhere
  simp [h]

@[simp] theorem endAll_keeps (h : b ∉ [.lane l, .arbiter]) :
    b.same s (endAll l o t) ↔ b.same s t := by
  simp at h
  unfold endAll
  simp [h]

@[simp] theorem reservationRecord_keeps (h : b ∉ [.records]) :
    b.same s (reservationRecord l st t) ↔ b.same s t := by
  simp at h
  unfold reservationRecord
  simp [h]

@[simp] theorem endReservation_keeps {f : Reservation → Bool} (h : b ∉ ([.lane l, .records] ++ anyReply)) :
    b.same s (endReservation l f st body t) ↔ b.same s t := by
  simp at h
  unfold endReservation
  try dsimp only
  (repeat' split) <;> simp [h]

@[simp] theorem recordState_keeps {f n : LaneState} (h : b ∉ [.records, .noticeMail]) :
    b.same s (recordState l f n t) ↔ b.same s t := by
  simp at h
  unfold recordState
  simp [h]

@[simp] theorem changeState_keeps {n : LaneState} (h : b ∉ ([.lane l, .reports, .records, .noticeMail] ++ anyReply)) :
    b.same s (changeState l n t) ↔ b.same s t := by
  simp at h
  unfold changeState
  dsimp only
  (repeat' split) <;> simp [h]

@[simp] theorem changeState_serving_keeps (h : b ∉ [.lane l, .reports, .records, .noticeMail]) :
    b.same s (changeState l .serving t) ↔ b.same s t := by
  simp at h
  unfold changeState
  try dsimp only
  (repeat' split) <;> simp_all [LaneState.inService]

@[simp] theorem changeState_ready_keeps (h : b ∉ [.lane l, .reports, .records, .noticeMail]) :
    b.same s (changeState l .ready t) ↔ b.same s t := by
  simp at h
  unfold changeState
  try dsimp only
  (repeat' split) <;> simp_all [LaneState.inService]

@[simp] theorem openWindow_keeps (h : b ∉ [.lane l]) :
    b.same s (openWindow l w t) ↔ b.same s t := by
  simp at h
  unfold openWindow
  simp [h]

@[simp] theorem paceTest_keeps (h : b ∉ [.lane l]) :
    b.same s (paceTest l w t) ↔ b.same s t := by
  simp at h
  unfold paceTest
  try dsimp only
  (repeat' split) <;> simp [h]

@[simp] theorem startWindow_keeps (h : b ∉ [.lane l]) :
    b.same s (startWindow l w t) ↔ b.same s t := by
  simp at h
  unfold startWindow
  try dsimp only
  (repeat' split) <;> simp [h]

@[simp] theorem settleWindows_keeps {ws : List Window} (h : b ∉ [.lane l]) :
    b.same s (settleWindows l ws t) ↔ b.same s t := by
  induction ws generalizing t with
  | nil => rfl
  | cons w r ih => rw [settleWindows, ih] <;> simp [startWindow_keeps h]

@[simp] theorem leaveAssigning_keeps (h : b ∉ [.lane l]) :
    b.same s (leaveAssigning l w t) ↔ b.same s t := by
  simp at h
  unfold leaveAssigning
  try dsimp only
  (repeat' split) <;> simp [h]

@[simp] theorem settleTravel_keeps (h : b ∉ [.lane l]) :
    b.same s (settleTravel l t) ↔ b.same s t := by
  simp at h
  unfold settleTravel
  simp [h]

@[simp] theorem settleWanted_keeps (h : b ∉ [.lane l, .line l]) :
    b.same s (settleWanted l t) ↔ b.same s t := by
  simp at h
  unfold settleWanted
  try dsimp only
  (repeat' split) <;> simp [h]

@[simp] theorem endEvent_keeps (h : b ∉ [.lane l, .line l]) :
    b.same s (endEvent l t) ↔ b.same s t := by
  simp at h
  unfold endEvent
  try dsimp only
  (repeat' split) <;> simp [h]

@[simp] theorem offerPlace_keeps (h : b ∉ [.lane l, .arbiter, .escort]) :
    b.same s (offerPlace l t) ↔ b.same s t := by
  simp at h
  unfold offerPlace
  try dsimp only
  (repeat' split) <;> simp [h]

@[simp] theorem offerPlaces_keeps (h : b ∉ [.lane l, .arbiter, .escort]) :
    b.same s (offerPlaces l t) ↔ b.same s t := by
  simp at h
  unfold offerPlaces
  simp [h]

@[simp] theorem raiseAlarm_keeps {q : AlarmReason} (h : b ∉ ([.lane l, .arbiter, .reports, .records, .noticeMail] ++ anyReply)) :
    b.same s (raiseAlarm l q t) ↔ b.same s t := by
  simp at h
  unfold raiseAlarm
  simp [h]

@[simp] theorem backToReady_keeps (h : b ∉ [.lane l, .arbiter, .escort, .reports, .records, .noticeMail]) :
    b.same s (backToReady l t) ↔ b.same s t := by
  simp at h
  unfold backToReady
  simp [h]

@[simp] theorem countDenial_keeps (h : b ∉ [.lane l]) :
    b.same s (countDenial l t) ↔ b.same s t := by
  simp at h
  unfold countDenial
  simp [h]

@[simp] theorem countLineError_keeps (h : b ∉ [.lane l]) :
    b.same s (countLineError l t) ↔ b.same s t := by
  simp at h
  unfold countLineError
  simp [h]

@[simp] theorem setCalls_keeps {q : List CallRec} (h : b ∉ [.dispatch, .noticeMail]) :
    b.same s (setCalls q t) ↔ b.same s t := by
  simp at h
  unfold setCalls
  try dsimp only
  (repeat' split) <;> simp [h]

@[simp] theorem countLoss_keeps (h : b ∉ [.dispatch]) :
    b.same s (countLoss t) ↔ b.same s t := by
  simp at h
  unfold countLoss
  simp [h]

@[simp] theorem postCall_keeps (h : b ∉ [.dispatch, .noticeMail, .records, .indications]) :
    b.same s (postCall w t) ↔ b.same s t := by
  simp at h
  unfold postCall
  try dsimp only
  (repeat' split) <;> simp [h]

@[simp] theorem createWindow_keeps {o : Origin} {m : Bool} (h : b ∉ [.lane l, .table, .dispatch, .noticeMail, .records, .indications, .reports]) :
    b.same s (createWindow l e d o m t) ↔ b.same s t := by
  simp at h
  unfold createWindow
  simp [h]

/-! ## The walker and the table's requests -/

variable {es : List Entry} {n : Nat} {f force : Bool} {q : WalkRequest} {cl : ClassSet} {is : IssuerSet} {todo : List Cred}

@[simp] theorem tableRecord_keeps {k : TableCode} {c : Option Cred} {d : Detail} (h : b ∉ [.records]) :
    b.same s (tableRecord k c d t) ↔ b.same s t := by
  simp at h
  unfold tableRecord
  simp [h]

@[simp] theorem handleReferring_keeps (h : b ∉ [.table, .escortEnds]) :
    b.same s (handleReferring e c t) ↔ b.same s t := by
  simp at h
  unfold handleReferring
  try dsimp only
  (repeat' split) <;> simp [h]

@[simp] theorem setWalk_keeps {x : Option Walk} (h : b ∉ [.table]) :
    b.same s (setWalk x t) ↔ b.same s t := by
  simp at h
  unfold setWalk
  simp [h]

@[simp] theorem askWalk_keeps (h : b ∉ [.table]) :
    b.same s (askWalk q t) ↔ b.same s t := by
  simp at h
  unfold askWalk
  try dsimp only
  (repeat' split) <;> simp [h]

@[simp] theorem endWalk_keeps (h : b ∉ [.table]) :
    b.same s (endWalk t) ↔ b.same s t := by
  simp at h
  unfold endWalk
  try dsimp only
  (repeat' split) <;> simp [h]

@[simp] theorem addEntry_keeps (h : b ∉ [.table]) :
    b.same s (addEntry e t) ↔ b.same s t := by
  simp at h
  unfold addEntry
  try dsimp only
  (repeat' split) <;> simp [h]

@[simp] theorem moveRefs_keeps {x y : Option Cred} (h : b ∉ [.table]) :
    b.same s (moveRefs x y t) ↔ b.same s t := by
  simp at h
  unfold moveRefs
  try dsimp only
  (repeat' split) <;> simp [h]

@[simp] theorem applyModify_keeps {e' : Entry} (h : b ∉ [.table, .escortEnds]) :
    b.same s (applyModify e e' t) ↔ b.same s t := by
  simp at h
  unfold applyModify
  try dsimp only
  (repeat' split) <;> simp [h]

@[simp] theorem withdrawClaim_keeps {x : Option Claim} (h : b ∉ [.withdrawals]) :
    b.same s (withdrawClaim x t).1 ↔ b.same s t := by
  simp at h
  unfold withdrawClaim
  split <;> simp [h]

@[simp] theorem revokeNow_keeps (h : b ∉ [.table, .escortEnds, .withdrawals, .records]) :
    b.same s (revokeNow e f t).1 ↔ b.same s t := by
  simp at h
  unfold revokeNow
  cases f <;> simp [h]

@[simp] theorem insertEntry_keeps {im : InsertImage} (h : b ∉ [.table, .replies p]) :
    b.same s (insertEntry p im t) ↔ b.same s t := by
  simp at h
  unfold insertEntry
  try dsimp only
  (repeat' split) <;> simp [h]

@[simp] theorem modifyEntry_keeps {im : ModifyImage} (h : b ∉ [.table, .escortEnds, .withdrawals, .replies p]) :
    b.same s (modifyEntry p im t) ↔ b.same s t := by
  simp at h
  unfold modifyEntry
  try dsimp only
  (repeat' split) <;> simp [h]

@[simp] theorem revokeEntry_keeps (h : b ∉ [.table, .escortEnds, .withdrawals, .records, .replies p]) :
    b.same s (revokeEntry p c f force t) ↔ b.same s t := by
  simp at h
  unfold revokeEntry
  try dsimp only
  (repeat' split) <;> simp [h]

@[simp] theorem queryEntry_keeps (h : b ∉ [.replies p]) :
    b.same s (queryEntry p c t) ↔ b.same s t := by
  simp at h
  unfold queryEntry
  try dsimp only
  (repeat' split) <;> simp [h]

@[simp] theorem setSide_keeps {v : Byte} (h : b ∉ [.table, .replies p]) :
    b.same s (setSide p c v t) ↔ b.same s t := by
  simp at h
  unfold setSide
  try dsimp only
  (repeat' split) <;> simp [h]

@[simp] theorem purge_keeps {v v' : Byte} (h : b ∉ [.table, .replies p]) :
    b.same s (purge p v v' t) ↔ b.same s t := by
  simp at h
  unfold purge
  try dsimp only
  (repeat' split) <;> simp [h]

@[simp] theorem setQuota_keeps (h : b ∉ [.table, .replies p]) :
    b.same s (setQuota p n t) ↔ b.same s t := by
  simp at h
  unfold setQuota
  try dsimp only
  (repeat' split) <;> simp [h]

@[simp] theorem settlePurge_keeps (h : b ∉ [.table]) :
    b.same s (settlePurge t) ↔ b.same s t := by
  simp at h
  unfold settlePurge
  try dsimp only
  (repeat' split) <;> simp [h]

@[simp] theorem purgeFirstVisit_keeps (h : b ∉ [.table, .escortEnds]) :
    b.same s (purgeFirstVisit cl is todo n c t) ↔ b.same s t := by
  simp at h
  unfold purgeFirstVisit
  try dsimp only
  (repeat' split) <;> simp [h]

@[simp] theorem purgeSecondVisit_keeps (h : b ∉ [.table, .escortEnds]) :
    b.same s (purgeSecondVisit cl is todo n c t) ↔ b.same s t := by
  simp at h
  unfold purgeSecondVisit
  try dsimp only
  (repeat' split) <;> simp [h]

@[simp] theorem removeAll_keeps (h : b ∉ [.table, .escortEnds]) :
    b.same s (removeAll es t) ↔ b.same s t := by
  induction es generalizing t with
  | nil => rfl
  | cons e r ih => rw [removeAll, ih, removeEntry_keeps h]

@[simp] theorem purgeEnd_keeps (h : b ∉ [.table, .escortEnds, .records, .replies .security]) :
    b.same s (purgeEnd n t) ↔ b.same s t := by
  simp at h
  unfold purgeEnd
  try dsimp only
  (repeat' split) <;> simp [h]

@[simp] theorem forcedStart_keeps (h : b ∉ [.table, .escortEnds, .withdrawals, .records, .replies .security]) :
    b.same s (forcedStart c f t) ↔ b.same s t := by
  simp at h
  unfold forcedStart
  try dsimp only
  (repeat' split) <;> simp [h]

@[simp] theorem forcedVisit_keeps {x : Cred} (h : b ∉ [.table, .escortEnds]) :
    b.same s (forcedVisit x f todo n force c t) ↔ b.same s t := by
  simp at h
  unfold forcedVisit
  try dsimp only
  (repeat' split) <;> simp [h]

@[simp] theorem forcedEnd_keeps (h : b ∉ [.table, .escortEnds, .records, .replies .security]) :
    b.same s (forcedEnd c f n force t) ↔ b.same s t := by
  simp at h
  unfold forcedEnd
  try dsimp only
  (repeat' split) <;> simp [h]

@[simp] theorem settleSweep_keeps (h : b ∉ [.table, .records]) :
    b.same s (settleSweep t) ↔ b.same s t := by
  simp at h
  unfold settleSweep
  try dsimp only
  (repeat' split) <;> simp [h]

@[simp] theorem sweepVisit_keeps (h : b ∉ [.table, .escortEnds]) :
    b.same s (sweepVisit todo n c t) ↔ b.same s t := by
  simp at h
  unfold sweepVisit
  try dsimp only
  (repeat' split) <;> simp [h]

@[simp] theorem minuteSweep_keeps (h : b ∉ [.table, .records]) :
    b.same s (minuteSweep t) ↔ b.same s t := by
  simp at h
  unfold minuteSweep
  try dsimp only
  (repeat' split) <;> simp [h]

@[simp] theorem sendResult_keeps {x : PostingResult} (h : b ∉ [.results]) :
    b.same s (sendResult x t) ↔ b.same s t := by
  simp at h
  unfold sendResult
  simp [h]

@[simp] theorem post_keeps {x : Posting} (h : b ∉ [.table, .results]) :
    b.same s (post x t) ↔ b.same s t := by
  simp at h
  unfold post
  try dsimp only
  (repeat' split) <;> simp [h]

/-! ## The escort unit -/

variable {v sp : Cred} {ph : WaitPhase} {xs : List EscortRec}

@[simp] theorem escortRecord_keeps {k : EscortCode} {x : Option Lane} {y : Option Cred} {d : Detail} (h : b ∉ [.records]) :
    b.same s (escortRecord k x y d t) ↔ b.same s t := by
  simp at h
  unfold escortRecord
  simp [h]

@[simp] theorem dropWait_keeps (h : b ∉ [.escort]) :
    b.same s (dropWait v t) ↔ b.same s t := by
  simp at h
  unfold dropWait
  simp [h]

@[simp] theorem dropCredit_keeps (h : b ∉ [.escort]) :
    b.same s (dropCredit c t) ↔ b.same s t := by
  simp at h
  unfold dropCredit
  simp [h]

@[simp] theorem settleLane_keeps (h : b ∉ [.lane l, .line l, .arbiter, .escort]) :
    b.same s (settleLane l t) ↔ b.same s t := by
  simp at h
  unfold settleLane
  simp [h]

@[simp] theorem afterWait_keeps (h : b ∉ [.lane l, .line l, .arbiter, .escort]) :
    b.same s (afterWait l ph t) ↔ b.same s t := by
  simp at h
  unfold afterWait
  try dsimp only
  (repeat' split) <;> simp [h]

@[simp] theorem expireWait_keeps (h : b ∉ [.lane l, .arbiter, .escort, .records]) :
    b.same s (expireWait v sp l t) ↔ b.same s t := by
  simp at h
  unfold expireWait
  simp [h]

@[simp] theorem timeoutWait_keeps (h : b ∉ ([.arbiter, .escort, .records] ++ everyLane)) :
    b.same s (timeoutWait v t) ↔ b.same s t := by
  simp at h
  unfold timeoutWait
  try dsimp only
  (repeat' split) <;> simp [h]

@[simp] theorem expireCredit_keeps (h : b ∉ [.escort, .records]) :
    b.same s (expireCredit c l t) ↔ b.same s t := by
  simp at h
  unfold expireCredit
  simp [h]

@[simp] theorem backToPending_keeps (h : b ∉ ([.arbiter, .escort, .records] ++ everyLane)) :
    b.same s (backToPending v t) ↔ b.same s t := by
  simp at h
  unfold backToPending
  try dsimp only
  (repeat' split) <;> simp [h]

@[simp] theorem moveWait_keeps (h : b ∉ ([.arbiter, .escort, .records] ++ everyLane)) :
    b.same s (moveWait v l t) ↔ b.same s t := by
  simp at h
  unfold moveWait
  try dsimp only
  (repeat' split) <;> simp [h]

@[simp] theorem expireAll_keeps (h : b ∉ ([.arbiter, .escort, .records] ++ everyLane)) :
    b.same s (expireAll xs t) ↔ b.same s t := by
  simp at h
  induction xs generalizing t with
  | nil => rfl
  | cons r rest ih => cases r <;> simp [expireAll, ih, h]

@[simp] theorem settleWaitLanes_keeps (h : b ∉ ([.arbiter, .escort] ++ everyLane)) :
    b.same s (settleWaitLanes xs t) ↔ b.same s t := by
  simp at h
  induction xs generalizing t with
  | nil => rfl
  | cons r rest ih => cases r <;> simp [settleWaitLanes, ih, h]

@[simp] theorem setEscort_keeps (h : b ∉ ([.arbiter, .escort, .records, .replies p] ++ everyLane)) :
    b.same s (setEscort p n t) ↔ b.same s t := by
  simp at h
  unfold setEscort
  try dsimp only
  (repeat' split) <;> simp [h]

@[simp] theorem sponsorCredit_keeps (h : b ∉ [.escort, .records]) :
    b.same s (sponsorCredit c l t) ↔ b.same s t := by
  simp at h
  unfold sponsorCredit
  try dsimp only
  (repeat' split) <;> simp [h]

@[simp] theorem settleOuter_keeps {ls : List Lane} (h : b ∉ everyLane) :
    b.same s (settleOuter ls t) ↔ b.same s t := by
  simp at h
  induction ls generalizing t with
  | nil => rfl
  | cons l rest ih => simp [settleOuter, ih, h]

@[simp] theorem releaseWaits_keeps (h : b ∉ ([.escort, .records, .releases] ++ everyLane)) :
    b.same s (releaseWaits c xs t) ↔ b.same s t := by
  simp at h
  induction xs generalizing t with
  | nil => rfl
  | cons r rest ih =>
    cases r with
    | wait v x m st ph => cases ph <;> simp [releaseWaits, ih, h]
    | credit x m st => simp [releaseWaits, ih]

@[simp] theorem sponsorPassage_keeps {x : HandedPassage} (h : b ∉ ([.escort, .records, .releases] ++ everyLane)) :
    b.same s (sponsorPassage x t) ↔ b.same s t := by
  simp at h
  unfold sponsorPassage
  try dsimp only
  (repeat' split) <;> simp [h]

@[simp] theorem releaseInto_keeps (h : b ∉ [.lane l, .table, .escort, .dispatch, .noticeMail, .records, .indications, .reports]) :
    b.same s (releaseInto e l t) ↔ b.same s t := by
  simp at h
  unfold releaseInto
  simp [h]

@[simp] theorem refuseWait_keeps (h : b ∉ [.lane l, .escort, .records]) :
    b.same s (refuseWait v l t) ↔ b.same s t := by
  simp at h
  unfold refuseWait
  simp [h]

@[simp] theorem releaseAtTable_keeps (h : b ∉ ([.arbiter, .table, .escort, .dispatch, .noticeMail, .records, .indications, .reports] ++ everyLane)) :
    b.same s (releaseAtTable v l t) ↔ b.same s t := by
  simp at h
  unfold releaseAtTable
  try dsimp only
  (repeat' split) <;> simp [h]

@[simp] theorem withdrawnByTable_keeps (h : b ∉ [.lane l, .escort, .records]) :
    b.same s (withdrawnByTable v l t) ↔ b.same s t := by
  simp at h
  unfold withdrawnByTable
  simp [h]

@[simp] theorem takeWaitEnds_keeps (h : b ∉ [.escortEnds]) : b.same s (takeWaitEnds v t) ↔ b.same s t := by
  simp at h
  unfold takeWaitEnds
  simp [h]

@[simp] theorem endStale_keeps (h : b ∉ ([.escortEnds, .arbiter, .escort, .records] ++ everyLane)) :
    b.same s (endStale v l t) ↔ b.same s t := by
  simp at h
  unfold endStale
  try dsimp only
  (repeat' split) <;> simp [h]

@[simp] theorem withdrawWait_keeps (h : b ∉ ([.arbiter, .escort, .records] ++ everyLane)) :
    b.same s (withdrawWait v t) ↔ b.same s t := by
  simp at h
  unfold withdrawWait
  try dsimp only
  (repeat' split) <;> simp [h]

@[simp] theorem removeCredit_keeps (h : b ∉ [.escort, .records]) :
    b.same s (removeCredit c t) ↔ b.same s t := by
  simp at h
  unfold removeCredit
  try dsimp only
  (repeat' split) <;> simp [h]

@[simp] theorem recordEnds_keeps (h : b ∉ ([.arbiter, .records] ++ (Lane.all.map Block.lane))) :
    b.same s (recordEnds f xs t) ↔ b.same s t := by
  simp at h
  induction xs generalizing t with
  | nil => rfl
  | cons r rest ih => cases r <;> cases f <;> simp [recordEnds, ih, h]

@[simp] theorem clearList_keeps (h : b ∉ ([.arbiter, .records, .escort] ++ (Lane.all.map Block.lane))) :
    b.same s (clearList f t) ↔ b.same s t := by
  simp at h
  unfold clearList
  simp [h]

@[simp] theorem recordEnds_false_keeps (h : b ∉ [.arbiter, .records]) :
    b.same s (recordEnds false xs t) ↔ b.same s t := by
  simp at h
  induction xs generalizing t with
  | nil => rfl
  | cons r rest ih => cases r <;> simp [recordEnds, ih, h]

@[simp] theorem clearList_false_keeps (h : b ∉ [.arbiter, .records, .escort]) :
    b.same s (clearList false t) ↔ b.same s t := by
  simp at h
  unfold clearList
  simp [h]

@[simp] theorem endEvents_keeps {ls : List Lane} (h : b ∉ everyLane) :
    b.same s (endEvents ls t) ↔ b.same s t := by
  simp at h
  induction ls generalizing t with
  | nil => rfl
  | cons m r ih => simp [endEvents, ih, h]

/-! ## Occupancy and the governor -/

@[simp] theorem bankEvent_keeps {k : BankCode} {bs : List Byte} (h : b ∉ [.records, .noticeMail]) :
    b.same s (bankEvent k bs t) ↔ b.same s t := by
  simp at h
  unfold bankEvent
  simp [h]

@[simp] theorem setUncertain_keeps {k : UncertainCause} (h : b ∉ [.occupancy, .records, .noticeMail]) :
    b.same s (setUncertain k t) ↔ b.same s t := by
  simp at h
  unfold setUncertain
  try dsimp only
  (repeat' split) <;> simp [h]

@[simp] theorem handAction_keeps {a : ActiveAction} (h : b ∉ [.actions, .records, .noticeMail]) :
    b.same s (handAction a t) ↔ b.same s t := by
  simp at h
  unfold handAction
  try dsimp only
  (repeat' split) <;> simp [h]

@[simp] theorem setOccupancy_keeps {u : OccupancyUnit} (h : b ∉ [.occupancy, .actions, .records, .noticeMail]) :
    b.same s (setOccupancy u t) ↔ b.same s t := by
  simp at h
  unfold setOccupancy
  simp [h]

@[simp] theorem changeCount_keeps {k : Class} (h : b ∉ [.occupancy, .actions, .records, .noticeMail]) :
    b.same s (changeCount k n t) ↔ b.same s t := by
  simp at h
  unfold changeCount
  simp [h]

@[simp] theorem countPassage_keeps {k : Class} (h : b ∉ [.occupancy, .actions, .records, .noticeMail]) :
    b.same s (countPassage k d t) ↔ b.same s t := by
  simp at h
  unfold countPassage
  try dsimp only
  (repeat' split) <;> simp [h]

@[simp] theorem applyCounts_keeps {k : HeadCounts} (h : b ∉ [.occupancy, .actions, .records, .noticeMail]) :
    b.same s (applyCounts k t) ↔ b.same s t := by
  simp at h
  unfold applyCounts
  simp [h]

@[simp] theorem setGovernor_keeps {g : Byte} {k : GroupChange} {m : Option Nat} (h : b ∉ [.occupancy, .actions, .records, .noticeMail, .replies p]) :
    b.same s (setGovernor p g k m t) ↔ b.same s t := by
  simp at h
  unfold setGovernor
  try dsimp only
  (repeat' split) <;> simp [h]

/-! ## The decision unit -/

variable {dl : DeskLookup} {mark : Bool}

@[simp] theorem verdictRecord_keeps {x : Verdict} (h : b ∉ [.records]) :
    b.same s (verdictRecord l d c x t) ↔ b.same s t := by
  simp at h
  unfold verdictRecord
  simp [h]

@[simp] theorem verdictEffect_keeps {x : Verdict} (h : b ∉ ([.escortEnds, .arbiter, .table, .escort, .dispatch, .noticeMail, .records, .indications, .reports] ++ everyLane)) :
    b.same s (verdictEffect l d x t) ↔ b.same s t := by
  simp at h
  unfold verdictEffect
  try dsimp only
  (repeat' split) <;> simp [h]

@[simp] theorem giveVerdict_keeps {x : Verdict} (h : b ∉ ([.escortEnds, .arbiter, .table, .escort, .dispatch, .noticeMail, .records, .indications, .reports] ++ everyLane)) :
    b.same s (giveVerdict l d c x t) ↔ b.same s t := by
  simp at h
  unfold giveVerdict
  try dsimp only
  (repeat' split) <;> simp [h]

@[simp] theorem giveVerdict_refusal_keeps {u : State} (h : b ∉ [.lane l, .records]) :
    b.same s (giveVerdict l d c (laneRefusal u l) t) ↔ b.same s t := by
  simp at h
  unfold giveVerdict laneRefusal verdictEffect
  dsimp only
  (repeat' split) <;> simp_all

@[simp] theorem giveVerdict_busy_keeps (h : b ∉ [.lane l, .records]) :
    b.same s (giveVerdict l d c .busy t) ↔ b.same s t := by
  simp at h
  unfold giveVerdict verdictEffect
  dsimp only
  (repeat' split) <;> simp_all

@[simp] theorem startDecision_keeps {x : Presentation} (h : b ∉ [.lane l, .line l, .arbiter, .records]) :
    b.same s (startDecision l x t) ↔ b.same s t := by
  simp at h
  unfold startDecision
  try dsimp only
  (repeat' split) <;> simp [h]

@[simp] theorem clearDecision_keeps (h : b ∉ [.lane l]) :
    b.same s (clearDecision l t) ↔ b.same s t := by
  simp at h
  unfold clearDecision
  simp [h]

@[simp] theorem lookupAtTable_keeps {x : Presentation} (h : b ∉ ([.escortEnds, .arbiter, .table, .escort, .dispatch, .noticeMail, .records, .indications, .reports] ++ everyLane)) :
    b.same s (lookupAtTable l x t) ↔ b.same s t := by
  simp at h
  unfold lookupAtTable
  try dsimp only
  (repeat' split) <;> simp [h]

@[simp] theorem deskRecord_keeps {x : Option Entry} {y : Option Tag} {z : Option DenyReason} (h : b ∉ [.records]) :
    b.same s (deskRecord p dl x y mark z t) ↔ b.same s t := by
  simp at h
  unfold deskRecord
  simp [h]

@[simp] theorem denyDesk_keeps {x : Option Entry} {z : DenyReason} (h : b ∉ [.records, .replies p]) :
    b.same s (denyDesk p dl x z t) ↔ b.same s t := by
  simp at h
  unfold denyDesk
  simp [h]

@[simp] theorem reservedRecord_keeps (h : b ∉ [.records]) :
    b.same s (reservedRecord dl st t) ↔ b.same s t := by
  simp at h
  unfold reservedRecord
  try dsimp only
  (repeat' split) <;> simp [h]

@[simp] theorem endWaitByDesk_keeps {g : Tag} (h : b ∉ [.escort, .records]) :
    b.same s (endWaitByDesk p e g t) ↔ b.same s t := by
  simp at h
  unfold endWaitByDesk
  try dsimp only
  (repeat' split) <;> simp [h]

@[simp] theorem afterDeskWait_keeps {x : Option EscortRec} (h : b ∉ ([.arbiter, .escort] ++ everyLane)) :
    b.same s (afterDeskWait x t) ↔ b.same s t := by
  simp at h
  unfold afterDeskWait
  try dsimp only
  (repeat' split) <;> simp [h]

@[simp] theorem grantDesk_keeps (h : b ∉ ([.replies p, .arbiter, .table, .escort, .dispatch, .noticeMail, .records, .indications, .reports] ++ everyLane)) :
    b.same s (grantDesk p dl e mark t) ↔ b.same s t := by
  simp at h
  unfold grantDesk
  simp [h]

@[simp] theorem deskAtTable_keeps (h : b ∉ ([.replies p, .arbiter, .table, .escort, .dispatch, .noticeMail, .records, .indications, .reports] ++ everyLane)) :
    b.same s (deskAtTable p dl t) ↔ b.same s t := by
  simp at h
  unfold deskAtTable
  try dsimp only
  (repeat' split) <;> simp [h]

@[simp] theorem deskPassAt_keeps (h : b ∉ [.lane l, .arbiter, .records, .replies p]) :
    b.same s (deskPassAt p c l d t) ↔ b.same s t := by
  simp at h
  unfold deskPassAt
  try dsimp only
  (repeat' split) <;> simp [h]

/-! ## The dispatch unit -/

@[simp] theorem dispatchRecord_keeps {k : DispatchCode} {g : Tag} {x : Option Cred} {y : Detail} (h : b ∉ [.records]) :
    b.same s (dispatchRecord k g x y t) ↔ b.same s t := by
  simp at h
  unfold dispatchRecord
  simp [h]

@[simp] theorem dropCall_keeps {g : Tag} (h : b ∉ [.dispatch, .noticeMail]) :
    b.same s (dropCall g t) ↔ b.same s t := by
  simp at h
  unfold dropCall
  simp [h]

@[simp] theorem settleCall_keeps {k : CallState} {x : Option Nat} (h : b ∉ [.lane l]) :
    b.same s (settleCall l w k x t) ↔ b.same s t := by
  simp at h
  unfold settleCall
  simp [h]

@[simp] theorem setDispatch_keeps {x y z : Option Byte} (h : b ∉ [.dispatch, .holds, .replies p]) :
    b.same s (setDispatch p x y z t) ↔ b.same s t := by
  simp at h
  unfold setDispatch
  try dsimp only
  (repeat' split) <;> simp [h]

@[simp] theorem dispatchStatus_keeps (h : b ∉ [.dispatch, .replies p]) :
    b.same s (dispatchStatus p t) ↔ b.same s t := by
  simp at h
  unfold dispatchStatus
  try dsimp only
  (repeat' split) <;> simp [h]

@[simp] theorem markTaken_keeps {cs : List CallRec} (h : b ∉ everyLane) :
    b.same s (markTaken cs t) ↔ b.same s t := by
  simp at h
  induction cs generalizing t with
  | nil => rfl
  | cons r rest ih => cases r <;> simp [markTaken, ih, h]

@[simp] theorem takeCalls_keeps (h : b ∉ ([.dispatch, .noticeMail, .replies p] ++ everyLane)) :
    b.same s (takeCalls p t) ↔ b.same s t := by
  simp at h
  unfold takeCalls
  simp [h]

@[simp] theorem staleAnswer_keeps {g : Tag} {x : List Byte} (h : b ∉ [.records, .replies p]) :
    b.same s (staleAnswer p g x t) ↔ b.same s t := by
  simp at h
  unfold staleAnswer
  simp [h]

@[simp] theorem assignCar_keeps {g : Tag} {x : Byte} (h : b ∉ ([.records, .indications, .replies p] ++ everyLane)) :
    b.same s (assignCar p g x t) ↔ b.same s t := by
  simp at h
  unfold assignCar
  try dsimp only
  (repeat' split) <;> simp [h]

@[simp] theorem declineCall_keeps {g : Tag} (h : b ∉ ([.records, .indications, .replies p] ++ everyLane)) :
    b.same s (declineCall p g t) ↔ b.same s t := by
  simp at h
  unfold declineCall
  try dsimp only
  (repeat' split) <;> simp [h]

@[simp] theorem timeoutCall_keeps (h : b ∉ [.lane l, .line l, .dispatch, .noticeMail, .records, .indications]) :
    b.same s (timeoutCall l w t) ↔ b.same s t := by
  simp at h
  unfold timeoutCall
  try dsimp only
  (repeat' split) <;> simp [h]

@[simp] theorem leaveAll_keeps {ws : List Window} (h : b ∉ [.lane l]) :
    b.same s (leaveAll l ws t) ↔ b.same s t := by
  induction ws generalizing t with
  | nil => rfl
  | cons w r ih => rw [leaveAll, ih, leaveAssigning_keeps h]

@[simp] theorem postCancel_keeps (h : b ∉ [.dispatch, .noticeMail, .records]) :
    b.same s (postCancel w t) ↔ b.same s t := by
  simp at h
  unfold postCancel
  try dsimp only
  (repeat' split) <;> simp [h]

@[simp] theorem endCall_keeps (h : b ∉ [.dispatch, .noticeMail, .records]) :
    b.same s (endCall w t) ↔ b.same s t := by
  simp at h
  unfold endCall
  try dsimp only
  (repeat' split) <;> simp [h]

/-! ## The bank safety unit -/

variable {ls : List Lane}

@[simp] theorem safetyEvent_keeps {k : BankCode} {bs : List Byte} (h : b ∉ [.records, .noticeMail]) :
    b.same s (safetyEvent k bs t) ↔ b.same s t := by
  simp at h
  unfold safetyEvent
  simp [h]

@[simp] theorem tellRestore_keeps (h : b ∉ everyLane) :
    b.same s (tellRestore ls t) ↔ b.same s t := by
  simp at h
  induction ls generalizing t with
  | nil => rfl
  | cons m r ih => simp [tellRestore, ih, h]

@[simp] theorem testRestoreEnd_keeps (h : b ∉ [.safety, .arbiter]) :
    b.same s (testRestoreEnd t) ↔ b.same s t := by
  simp at h
  unfold testRestoreEnd
  try dsimp only
  (repeat' split) <;> simp [h]

@[simp] theorem egressCall_keeps (h : b ∉ [.safety, .overtakes, .records, .noticeMail]) :
    b.same s (egressCall t) ↔ b.same s t := by
  simp at h
  unfold egressCall
  simp [h]

@[simp] theorem beginRestore_keeps (h : b ∉ ([.safety, .arbiter, .records, .noticeMail] ++ everyLane)) :
    b.same s (beginRestore t) ↔ b.same s t := by
  simp at h
  unfold beginRestore
  try dsimp only
  (repeat' split) <;> simp [h]

@[simp] theorem egressRelease_keeps (h : b ∉ ([.safety, .arbiter, .records, .noticeMail] ++ everyLane)) :
    b.same s (egressRelease t) ↔ b.same s t := by
  simp at h
  unfold egressRelease
  try dsimp only
  (repeat' split) <;> simp [h]

@[simp] theorem compareInput_keeps (h : b ∉ [.safety]) :
    b.same s (compareInput t) ↔ b.same s t := by
  simp at h
  unfold compareInput
  simp [h]

@[simp] theorem becomeEgress_keeps (h : b ∉ [.safety, .occupancy, .escortClears, .records, .noticeMail]) :
    b.same s (becomeEgress t) ↔ b.same s t := by
  simp at h
  unfold becomeEgress
  simp [h]

@[simp] theorem takeWaitingRelease_keeps (h : b ∉ ([.safety, .arbiter, .records, .noticeMail] ++ everyLane)) :
    b.same s (takeWaitingRelease t) ↔ b.same s t := by
  simp at h
  unfold takeWaitingRelease
  try dsimp only
  (repeat' split) <;> simp [h]

@[simp] theorem testEgress_keeps (h : b ∉ ([.safety, .occupancy, .escortClears, .arbiter, .records, .noticeMail] ++ everyLane)) :
    b.same s (testEgress t) ↔ b.same s t := by
  simp at h
  unfold testEgress
  try dsimp only
  (repeat' split) <;> simp [h]

@[simp] theorem sendAgain_keeps {x : LaneReport} (h : b ∉ [.overtakes]) :
    b.same s (sendAgain l x t) ↔ b.same s t := by
  simp at h
  unfold sendAgain
  try dsimp only
  (repeat' split) <;> simp [h]

@[simp] theorem overtakeLane_keeps (h : b ∉ ([.lane l, .line l, .arbiter, .records, .noticeMail, .reports] ++ anyReply)) :
    b.same s (overtakeLane l t) ↔ b.same s t := by
  simp at h
  unfold overtakeLane
  try dsimp only
  (repeat' split) <;> simp [h]

@[simp] theorem restore_keeps (h : b ∉ ([.safety, .arbiter, .replies p] ++ everyLane)) :
    b.same s (restore p t) ↔ b.same s t := by
  simp at h
  unfold restore
  try dsimp only
  (repeat' split) <;> simp [h]

@[simp] theorem setLockdown_keeps (h : b ∉ [.safety, .records, .noticeMail, .lockdowns, .escortLockdowns]) :
    b.same s (setLockdown f t) ↔ b.same s t := by
  simp at h
  unfold setLockdown
  dsimp only
  rw [Block.same_ite, mail_lockdowns_both_keeps h.2.2.2.1 h.2.2.2.2]
  simp [h]

@[simp] theorem lockdown_keeps {x : Byte} (h : b ∉ [.safety, .records, .noticeMail, .lockdowns, .escortLockdowns, .replies p]) :
    b.same s (lockdown p x t) ↔ b.same s t := by
  simp at h
  unfold lockdown
  try dsimp only
  (repeat' split) <;> simp [h]

/-! ## The lane sequencers' commands -/

@[simp] theorem moduleAgreed_keeps (h : b ∉ ([.lane l, .line l, .arbiter, .escort, .reports, .records, .noticeMail] ++ anyReply)) :
    b.same s (moduleAgreed l t) ↔ b.same s t := by
  simp at h
  unfold moduleAgreed
  try dsimp only
  (repeat' split) <;> simp [h]

@[simp] theorem leafLost_keeps (h : b ∉ ([.lane l, .line l, .arbiter, .records, .noticeMail, .reports] ++ anyReply)) :
    b.same s (leafLost l t) ↔ b.same s t := by
  simp at h
  unfold leafLost
  try dsimp only
  (repeat' split) <;> simp [h]

@[simp] theorem readerLost_keeps (h : b ∉ [.lane l, .line l]) :
    b.same s (readerLost l rd t) ↔ b.same s t := by
  simp at h
  unfold readerLost
  simp [h]

@[simp] theorem moduleLost_keeps (h : b ∉ ([.lane l, .line l, .arbiter, .records, .noticeMail, .reports] ++ anyReply)) :
    b.same s (moduleLost l x t) ↔ b.same s t := by
  simp at h
  unfold moduleLost
  try dsimp only
  (repeat' split) <;> simp [h]

@[simp] theorem closeDirections_keeps {lost : Direction → Bool} (h : b ∉ ([.lane l, .arbiter, .records] ++ anyReply)) :
    b.same s (closeDirections l lost t) ↔ b.same s t := by
  simp at h
  unfold closeDirections
  simp [h]

@[simp] theorem modeChanged_keeps {x y : Mode} (h : b ∉ ([.lane l, .arbiter, .escort, .records] ++ anyReply)) :
    b.same s (modeChanged l x y t) ↔ b.same s t := by
  simp at h
  unfold modeChanged
  try dsimp only
  (repeat' split) <;> simp [h]

@[simp] theorem applySettings_keeps {x : LaneSettings} (h : b ∉ ([.lane l, .line l, .arbiter, .escort, .reports, .records, .noticeMail] ++ anyReply)) :
    b.same s (applySettings l x t) ↔ b.same s t := by
  simp at h
  unfold applySettings
  simp [h]

@[simp] theorem setLane_keeps {k : LaneChange} (h : b ∉ ([.lane l, .line l, .arbiter, .escort, .reports, .records, .noticeMail] ++ anyReply)) :
    b.same s (setLane p l k t) ↔ b.same s t := by
  simp at h
  unfold setLane
  try dsimp only
  (repeat' split) <;> simp [h]

@[simp] theorem bankModeChanged_keeps {x y : Mode} (h : b ∉ ([.arbiter, .escort, .records] ++ everyLane ++ anyReply)) :
    b.same s (bankModeChanged x y ls t) ↔ b.same s t := by
  simp at h
  induction ls generalizing t with
  | nil => rfl
  | cons m r ih => simp [bankModeChanged, ih, h]

@[simp] theorem maskLane_keeps (h : b ∉ ([.lane l, .line l, .arbiter, .records, .noticeMail, .reports] ++ anyReply)) :
    b.same s (maskLane l t) ↔ b.same s t := by
  simp at h
  unfold maskLane
  simp [h]

@[simp] theorem unmaskLane_keeps (h : b ∉ ([.lane l, .line l, .arbiter, .records, .noticeMail, .reports] ++ anyReply)) :
    b.same s (unmaskLane l t) ↔ b.same s t := by
  simp at h
  unfold unmaskLane
  simp [h]

@[simp] theorem applyMask_keeps {x y : LaneSet} (h : b ∉ ([.arbiter, .reports, .records, .noticeMail] ++ everyLane ++ anyReply)) :
    b.same s (applyMask x y ls t) ↔ b.same s t := by
  simp at h
  induction ls generalizing t with
  | nil => rfl
  | cons m r ih => simp [applyMask, ih, h]

@[simp] theorem isolateLane_keeps (h : b ∉ ([.lane l, .line l, .arbiter, .records, .noticeMail, .reports] ++ anyReply)) :
    b.same s (isolateLane p l t) ↔ b.same s t := by
  simp at h
  unfold isolateLane
  try dsimp only
  (repeat' split) <;> simp [h]

@[simp] theorem resumeLane_keeps (h : b ∉ ([.lane l, .line l, .arbiter, .records, .noticeMail, .reports] ++ anyReply)) :
    b.same s (resumeLane p l t) ↔ b.same s t := by
  simp at h
  unfold resumeLane
  try dsimp only
  (repeat' split) <;> simp [h]

@[simp] theorem restartLane_keeps (h : b ∉ ([.lane l, .line l, .arbiter, .records, .noticeMail, .reports] ++ anyReply)) :
    b.same s (restartLane p l t) ↔ b.same s t := by
  simp at h
  unfold restartLane
  try dsimp only
  (repeat' split) <;> simp [h]

@[simp] theorem alarmReset_keeps (h : b ∉ ([.lane l, .line l, .arbiter, .escort, .reports, .records, .noticeMail] ++ anyReply)) :
    b.same s (alarmReset p l t) ↔ b.same s t := by
  simp at h
  unfold alarmReset
  try dsimp only
  (repeat' split) <;> simp [h]

@[simp] theorem readCounters_keeps (h : b ∉ [.lane l, .replies p]) :
    b.same s (readCounters p l t) ↔ b.same s t := by
  simp at h
  unfold readCounters
  simp [h]

@[simp] theorem crossIn_keeps (h : b ∉ ([.lane l, .line l, .arbiter, .records, .noticeMail, .reports] ++ anyReply)) :
    b.same s (crossIn l d t) ↔ b.same s t := by
  simp at h
  unfold crossIn
  try dsimp only
  (repeat' split) <;> simp [h]

@[simp] theorem pairSeen_keeps (h : b ∉ ([.lane l, .line l, .arbiter, .records, .noticeMail, .reports] ++ anyReply)) :
    b.same s (pairSeen l d t) ↔ b.same s t := by
  simp at h
  unfold pairSeen
  try dsimp only
  (repeat' split) <;> simp [h]

@[simp] theorem crossLeaf_keeps (h : b ∉ [.lane l]) :
    b.same s (crossLeaf l d t) ↔ b.same s t := by
  simp at h
  unfold crossLeaf
  try dsimp only
  (repeat' split) <;> simp [h]

@[simp] theorem laneRecord_keeps {k : LaneCode} {x : Detail} (h : b ∉ [.records]) :
    b.same s (laneRecord l k x t) ↔ b.same s t := by
  simp at h
  unfold laneRecord
  simp [h]

@[simp] theorem crossOut_keeps {x : SenseSide} (h : b ∉ [.lane l, .arbiter, .records]) :
    b.same s (crossOut l x t) ↔ b.same s t := by
  simp at h
  unfold crossOut
  try dsimp only
  (repeat' split) <;> simp [h]

@[simp] theorem retreat_keeps (h : b ∉ [.lane l, .arbiter, .records]) :
    b.same s (retreat l d t) ↔ b.same s t := by
  simp at h
  unfold retreat
  try dsimp only
  (repeat' split) <;> simp [h]

@[simp] theorem obstructOn_keeps (h : b ∉ [.lane l]) :
    b.same s (obstructOn l t) ↔ b.same s t := by
  simp at h
  unfold obstructOn
  try dsimp only
  (repeat' split) <;> simp [h]

@[simp] theorem retestPaced_keeps {ws : List Window} (h : b ∉ [.lane l]) :
    b.same s (retestPaced l ws t) ↔ b.same s t := by
  simp at h
  induction ws generalizing t with
  | nil => rfl
  | cons w r ih => simp [retestPaced, ih, h]

@[simp] theorem windowRecord_keeps (h : b ∉ [.records]) :
    b.same s (windowRecord w o f t) ↔ b.same s t := by
  simp at h
  unfold windowRecord
  simp [h]

@[simp] theorem handPassage_keeps {x : PostingResult} (h : b ∉ [.passages, .sponsors]) :
    b.same s (handPassage w x t) ↔ b.same s t := by
  simp at h
  unfold handPassage
  rw [mail_passages_both_keeps h.1 h.2]

@[simp] theorem settleServing_keeps (h : b ∉ [.lane l, .reports, .records, .noticeMail]) :
    b.same s (settleServing l t) ↔ b.same s t := by
  simp at h
  unfold settleServing
  try dsimp only
  (repeat' split) <;> simp [h]

@[simp] theorem removeWindow_keeps {x : PostingResult} (h : b ∉ [.lane l, .line l, .arbiter, .escort, .dispatch, .reports, .records, .noticeMail, .passages, .sponsors]) :
    b.same s (removeWindow l w x t) ↔ b.same s t := by
  simp at h
  unfold removeWindow
  try dsimp only
  (repeat' split) <;> simp [h]

/-! ## The lane lines -/

variable {g : SlotRec → SlotRec} {k : SentKind} {xs : List Slot} {coll : Collisions} {why : RefusalReason} {pr : Profile}

@[simp] theorem onSlot_keeps (h : b ∉ [.line l]) :
    b.same s (onSlot l x g t) ↔ b.same s t := by
  simp at h
  unfold onSlot
  simp [h]

@[simp] theorem lineRecord_keeps {m : LaneCode} {y : Marks} {bs : List Byte} (h : b ∉ [.records]) :
    b.same s (lineRecord l m x y bs t) ↔ b.same s t := by
  simp at h
  unfold lineRecord
  simp [h]

@[simp] theorem loseSlot_keeps (h : b ∉ ([.lane l, .line l, .arbiter, .records, .noticeMail, .reports] ++ anyReply)) :
    b.same s (loseSlot l x t) ↔ b.same s t := by
  simp at h
  unfold loseSlot
  simp [h]

@[simp] theorem missPoll_keeps (h : b ∉ ([.lane l, .line l, .arbiter, .records, .noticeMail, .reports] ++ anyReply)) :
    b.same s (missPoll l x t) ↔ b.same s t := by
  simp at h
  unfold missPoll
  try dsimp only
  (repeat' split) <;> simp [h]

@[simp] theorem jabberSlot_keeps (h : b ∉ ([.lane l, .line l, .arbiter, .records, .noticeMail, .reports] ++ anyReply)) :
    b.same s (jabberSlot l x t) ↔ b.same s t := by
  simp at h
  unfold jabberSlot
  try dsimp only
  (repeat' split) <;> simp [h]

@[simp] theorem agreeSlot_keeps (h : b ∉ ([.lane l, .line l, .arbiter, .escort, .reports, .records, .noticeMail] ++ anyReply)) :
    b.same s (agreeSlot l x pr f t) ↔ b.same s t := by
  simp at h
  unfold agreeSlot
  simp [h]

@[simp] theorem refuseSlot_keeps (h : b ∉ [.line l, .records]) :
    b.same s (refuseSlot l x why t) ↔ b.same s t := by
  simp at h
  unfold refuseSlot
  try dsimp only
  (repeat' split) <;> simp [h]

@[simp] theorem noAnswer_keeps (h : b ∉ [.line l, .records]) :
    b.same s (noAnswer l x t) ↔ b.same s t := by
  simp at h
  unfold noAnswer
  try dsimp only
  (repeat' split) <;> simp [h]

@[simp] theorem settleRound_keeps {y : Option Profile} (h : b ∉ ([.lane l, .line l, .arbiter, .escort, .reports, .records, .noticeMail] ++ anyReply)) :
    b.same s (settleRound l x f y t) ↔ b.same s t := by
  simp at h
  unfold settleRound
  try dsimp only
  (repeat' split) <;> simp [h]

@[simp] theorem inferSlot_keeps (h : b ∉ ([.lane l, .line l, .arbiter, .escort, .reports, .records, .noticeMail] ++ anyReply)) :
    b.same s (inferSlot l x t) ↔ b.same s t := by
  simp at h
  unfold inferSlot
  simp [h]

@[simp] theorem takePresentation_keeps {m : Medium} (h : b ∉ [.lane l, .line l, .arbiter, .records]) :
    b.same s (takePresentation l x c m t) ↔ b.same s t := by
  simp at h
  unfold takePresentation
  try dsimp only
  (repeat' split) <;> simp [h]

@[simp] theorem takeSense_keeps {y : List SenseEvent} {z : LeafPosition} {u : Zones} (h : b ∉ [.line l, .sense]) :
    b.same s (takeSense l y z u t) ↔ b.same s t := by
  simp at h
  unfold takeSense
  simp [h]

@[simp] theorem takePolled_keeps {y : GoodReply} (h : b ∉ [.sense, .lane l, .line l, .arbiter, .records]) :
    b.same s (takePolled l x y t) ↔ b.same s t := by
  simp at h
  unfold takePolled
  try dsimp only
  (repeat' split) <;> simp [h]

@[simp] theorem takeGood_keeps {z : Await} {y : GoodReply} (h : b ∉ ([.sense, .lane l, .line l, .arbiter, .escort, .reports, .records, .noticeMail] ++ anyReply)) :
    b.same s (takeGood l z y t) ↔ b.same s t := by
  simp at h
  unfold takeGood
  try dsimp only
  (repeat' split) <;> simp [h]

@[simp] theorem unanswered_keeps (h : b ∉ ([.lane l, .line l, .arbiter, .records, .noticeMail, .reports] ++ anyReply)) :
    b.same s (unanswered l x k t) ↔ b.same s t := by
  simp at h
  unfold unanswered
  try dsimp only
  (repeat' split) <;> simp [h]

/-- To a frame of a round that a RESTART_LANE ended, nothing happens. -/
theorem unlessVoid_of_void {z : Await} {g : State → State} (h : z.void = true) : z.unlessVoid g t = t := by
  simp [Await.unlessVoid, h]

/-- To any other frame, its effect happens. -/
theorem unlessVoid_of_live {z : Await} {g : State → State} (h : z.void = false) : z.unlessVoid g t = g t := by
  simp [Await.unlessVoid, h]

@[simp] theorem unlessVoid_keeps {z : Await} {g : State → State} (h : b.same s (g t) ↔ b.same s t) :
    b.same s (z.unlessVoid g t) ↔ b.same s t := by
  unfold Await.unlessVoid
  split
  · rfl
  · exact h

@[simp] theorem takeBad_keeps {z : Await} (h : b ∉ ([.lane l, .line l, .arbiter, .records, .noticeMail, .reports] ++ anyReply)) :
    b.same s (takeBad l z f t) ↔ b.same s t := by
  simp at h
  unfold takeBad
  try dsimp only
  (repeat' split) <;> simp [h]

@[simp] theorem emit_keeps {bs : List LineMark} (h : b ∉ [.line l]) :
    b.same s (emit l bs t) ↔ b.same s t := by
  simp at h
  unfold emit
  simp [h]

@[simp] theorem sendCommand_keeps (h : b ∉ [.lane l, .line l]) :
    b.same s (sendCommand l coll t) ↔ b.same s t := by
  simp at h
  unfold sendCommand
  try dsimp only
  (repeat' split) <;> simp [h]

@[simp] theorem sendShow_keeps (h : b ∉ [.lane l, .line l]) :
    b.same s (sendShow l rd n coll t) ↔ b.same s t := by
  simp at h
  unfold sendShow
  try dsimp only
  (repeat' split) <;> simp [h]

@[simp] theorem runSlots_keeps (h : b ∉ ([.lane l, .line l, .arbiter, .records, .noticeMail, .reports] ++ anyReply)) :
    b.same s (runSlots l coll xs t) ↔ b.same s t := by
  simp at h
  induction xs generalizing t with
  | nil => rfl
  | cons y r ih =>
    unfold runSlots
    split <;> simp [ih, h]

@[simp] theorem startCycle_keeps (h : b ∉ ([.lane l, .line l, .arbiter, .records, .noticeMail, .reports] ++ anyReply)) :
    b.same s (startCycle l coll t) ↔ b.same s t := by
  simp at h
  unfold startCycle
  simp [h]

/-! ## The clock, the journal and the notices -/

@[simp] theorem clockRecord_keeps {k : ClockCode} {y : Detail} (h : b ∉ [.records]) :
    b.same s (clockRecord k y t) ↔ b.same s t := by
  simp at h
  unfold clockRecord
  simp [h]

@[simp] theorem handAdvance_keeps {u : ClockUnit} (h : b ∉ [.table, .records, .noticeMail]) :
    b.same s (handAdvance u t) ↔ b.same s t := by
  simp at h
  unfold handAdvance
  try dsimp only
  (repeat' split) <;> simp [h]

@[simp] theorem takeTime_keeps {x : Secs} (h : b ∉ [.clock]) :
    b.same s (takeTime x t) ↔ b.same s t := by
  simp at h
  unfold takeTime
  simp [h]

@[simp] theorem setClock_keeps {x : Secs} (h : b ∉ [.clock, .records, .replies p]) :
    b.same s (setClock p x t) ↔ b.same s t := by
  simp at h
  unfold setClock
  simp [h]

@[simp] theorem readClock_keeps (h : b ∉ [.clock, .replies p]) :
    b.same s (readClock p t) ↔ b.same s t := by
  simp at h
  unfold readClock
  try dsimp only
  (repeat' split) <;> simp [h]

@[simp] theorem takeBeacon_keeps {x : Secs} (h : b ∉ [.clock, .records, .noticeMail]) :
    b.same s (takeBeacon x t) ↔ b.same s t := by
  simp at h
  unfold takeBeacon
  try dsimp only
  (repeat' split) <;> simp [h]

@[simp] theorem setJournal_keeps {u : JournalUnit} (h : b ∉ [.journal, .noticeMail]) :
    b.same s (setJournal u t) ↔ b.same s t := by
  simp at h
  unfold setJournal
  simp [h]

@[simp] theorem appendRecord_keeps (h : b ∉ [.journal, .noticeMail]) :
    b.same s (appendRecord r t) ↔ b.same s t := by
  simp at h
  unfold appendRecord
  try dsimp only
  (repeat' split) <;> simp [h]

@[simp] theorem readJournal_keeps {x : Byte} (h : b ∉ [.journal, .noticeMail, .replies p]) :
    b.same s (readJournal p x t) ↔ b.same s t := by
  simp at h
  unfold readJournal
  try dsimp only
  (repeat' split) <;> simp [h]

@[simp] theorem subscribe_keeps {x : BitVec 16} (h : b ∉ [.journal, .replies p]) :
    b.same s (subscribe p x t) ↔ b.same s t := by
  simp at h
  unfold subscribe
  try dsimp only
  (repeat' split) <;> simp [h]

@[simp] theorem journalStatus_keeps (h : b ∉ [.journal, .replies p]) :
    b.same s (journalStatus p t) ↔ b.same s t := by
  simp at h
  unfold journalStatus
  simp [h]

@[simp] theorem readNotices_keeps (h : b ∉ [.notices p, .replies p]) :
    b.same s (readNotices p t) ↔ b.same s t := by
  simp at h
  unfold readNotices
  simp [h]

@[simp] theorem setNoticeMask_keeps {x y : BitVec 16} (h : b ∉ [.notices p, .replies p]) :
    b.same s (setNoticeMask p x y t) ↔ b.same s t := by
  simp at h
  unfold setNoticeMask
  try dsimp only
  (repeat' split) <;> simp [h]

/-! ## The Foyer Bus -/

variable {x : Txn} {bs : List Byte} {y : Byte}

@[simp] theorem busy_keeps (h : b ∉ [.bus]) :
    b.same s (busy x t) ↔ b.same s t := by
  simp at h
  unfold busy
  simp [h]

@[simp] theorem acked_keeps {z : Ack} (h : b ∉ [.bus]) :
    b.same s (acked z t) ↔ b.same s t := by
  simp at h
  unfold acked
  simp [h]

@[simp] theorem beginTxn_keeps (h : b ∉ [.bus]) :
    b.same s (beginTxn t) ↔ b.same s t := by
  simp at h
  unfold beginTxn
  simp [h]

@[simp] theorem takeStart_keeps (h : b ∉ [.bus]) :
    b.same s (takeStart t) ↔ b.same s t := by
  simp at h
  unfold takeStart
  split <;> simp [h]

@[simp] theorem fillSlot_keeps (h : b ∉ [.port p, .noticeMail]) :
    b.same s (fillSlot p bs t) ↔ b.same s t := by
  simp at h
  unfold fillSlot
  simp [h]

@[simp] theorem emptySlot_keeps (h : b ∉ [.port p, .noticeMail]) :
    b.same s (emptySlot p t) ↔ b.same s t := by
  simp at h
  unfold emptySlot
  try dsimp only
  (repeat' split) <;> simp [h]

@[simp] theorem requestTaken_keeps (h : b ∉ [.port p, .noticeMail]) :
    b.same s (requestTaken p t) ↔ b.same s t := by
  simp at h
  unfold requestTaken
  try dsimp only
  (repeat' split) <;> simp [h]

@[simp] theorem endBroadcast_keeps (h : b ∉ [.beacons]) :
    b.same s (endBroadcast bs f t) ↔ b.same s t := by
  simp at h
  unfold endBroadcast
  try dsimp only
  (repeat' split) <;> simp [h]

@[simp] theorem endTxn_keeps (h : b ∉ ([.noticeMail, .beacons] ++ everyPort)) :
    b.same s (endTxn x t) ↔ b.same s t := by
  simp at h
  unfold endTxn
  try dsimp only
  (repeat' split) <;> simp [h]

@[simp] theorem stopTxn_keeps (h : b ∉ ([.bus, .noticeMail, .beacons] ++ everyPort)) :
    b.same s (stopTxn x t) ↔ b.same s t := by
  simp at h
  unfold stopTxn
  simp [h]

@[simp] theorem addressWrite_keeps (h : b ∉ [.port p, .bus]) :
    b.same s (addressWrite p x t) ↔ b.same s t := by
  simp at h
  unfold addressWrite
  try dsimp only
  (repeat' split) <;> simp [h]

@[simp] theorem addressRead_keeps (h : b ∉ [.bus]) :
    b.same s (addressRead p x t) ↔ b.same s t := by
  simp at h
  unfold addressRead
  simp [h]

@[simp] theorem addressed_keeps (h : b ∉ ([.bus] ++ everyPort)) :
    b.same s (addressed y x t) ↔ b.same s t := by
  simp at h
  unfold addressed
  try dsimp only
  (repeat' split) <;> simp [h]

@[simp] theorem dataByte_keeps (h : b ∉ ([.bus] ++ everyPort)) :
    b.same s (dataByte y x t) ↔ b.same s t := by
  simp at h
  unfold dataByte
  try dsimp only
  (repeat' split) <;> simp [h]

@[simp] theorem fullyRead_keeps (h : b ∉ [.bus, .noticeMail, .port p]) :
    b.same s (fullyRead p x t) ↔ b.same s t := by
  simp at h
  unfold fullyRead
  simp [h]

@[simp] theorem sendByte_keeps {z : ReadSource} (h : b ∉ [.bus, .noticeMail, .port p]) :
    b.same s (sendByte p z n x t) ↔ b.same s t := by
  simp at h
  unfold sendByte
  try dsimp only
  (repeat' split) <;> simp [h]

@[simp] theorem releaseHold_keeps {z : ReadSource} (h : b ∉ [.bus]) :
    b.same s (releaseHold p z t) ↔ b.same s t := by
  simp at h
  unfold releaseHold
  try dsimp only
  (repeat' split) <;> simp [h]

@[simp] theorem abandon_keeps (h : b ∉ ([.bus, .noticeMail] ++ everyPort)) :
    b.same s (abandon x t) ↔ b.same s t := by
  simp at h
  unfold abandon
  try dsimp only
  (repeat' split) <;> simp [h]

/-! ## The bank's settings and the resets -/

@[simp] theorem setLine_keeps {y : Option Byte} (h : b ∉ [.bank, .replies p]) :
    b.same s (setLine p y t) ↔ b.same s t := by
  simp at h
  unfold setLine
  try dsimp only
  (repeat' split) <;> simp [h]

@[simp] theorem resumeSafety_keeps (h : b ∉ ([.safety, .arbiter, .occupancy, .escortClears, .records, .noticeMail] ++ everyLane)) :
    b.same s (resumeSafety t) ↔ b.same s t := by
  simp at h
  unfold resumeSafety
  try dsimp only
  (repeat' split) <;> simp [h]

end Sys2Proof.Machine
end

