-- ==== Sys2Proof/Laws/Escort.lean ====
section
/-!
SUPPORT. The escort list (R82): whose WAIT and whose credit stands on it, what its operations leave there, and what a sponsor
passage does to it and records.
-/
namespace Sys2Proof.Machine

variable {s : State} {v x : Cred} {l : Lane}

/-- No WAIT of the visitor stands exactly when no record of the list is one. -/
theorem waitOf_eq_none : s.waitOf v = none ↔ ∀ r ∈ s.escort.list, isWaitOf v r = false := by
  simp [State.waitOf, List.find?_eq_none]

/-- A state whose escort unit is the same has the same WAITs. -/
theorem waitOf_of_same {t : State} (h : Block.escort.same s t) : t.waitOf v = s.waitOf v := by
  have k : t.escort = s.escort := h
  simp [State.waitOf, k]

/-- A phase changed leaves each record the same visitor's. -/
theorem setPhase_isWaitOf {ph : WaitPhase} {list : List EscortRec} (h : ∀ r ∈ list, isWaitOf v r = false) :
    ∀ r ∈ setPhase x ph list, isWaitOf v r = false := by
  intro r hr
  simp only [setPhase, List.mem_map] at hr
  obtain ⟨q, hq, rfl⟩ := hr
  have := h q hq
  cases q with
  | wait y sp m st p => dsimp only; split <;> exact this
  | credit c m st => rfl

/-- The visitor whose WAIT left the list has none there. -/
@[simp] theorem waitOf_dropWait : (dropWait v s).waitOf v = none := by
  rw [waitOf_eq_none]
  intro r hr
  simpa [dropWait, onEscort] using (List.mem_filter.mp hr).2

/-- A credit that left the list is not there. -/
@[simp] theorem hasCredit_dropCredit : (dropCredit x s).hasCredit x = false := by
  simp [State.hasCredit, dropCredit, onEscort]

/-- The list after a credit left it. -/
@[simp] theorem list_dropCredit : (dropCredit x s).escort.list = s.escort.list.filter (fun r => !isCreditOf x r) := rfl

/-- The list after a WAIT left it. -/
@[simp] theorem list_dropWait : (dropWait v s).escort.list = s.escort.list.filter (fun r => !isWaitOf v r) := rfl

/-- An offered place gives no visitor a WAIT. -/
theorem waitOf_offerPlace (h : s.waitOf v = none) : (offerPlace l s).waitOf v = none := by
  rw [waitOf_eq_none] at *
  unfold offerPlace
  (repeat' split) <;> first | exact h | exact setPhase_isWaitOf h

theorem waitOf_offerPlaces (h : s.waitOf v = none) : (offerPlaces l s).waitOf v = none :=
  waitOf_offerPlace (waitOf_offerPlace h)

/-- The end of a lane's event leaves every WAIT as it was. -/
@[simp] theorem waitOf_endEvent : (endEvent l s).waitOf v = s.waitOf v := waitOf_of_same (by simp)

theorem waitOf_afterWait {ph : WaitPhase} (h : s.waitOf v = none) : (afterWait l ph s).waitOf v = none := by
  unfold afterWait settleLane
  split <;> simp [h, waitOf_offerPlaces]

/-- The visitor whose WAIT the table ended has none. -/
@[simp] theorem waitOf_withdrawnByTable : (withdrawnByTable v l s).waitOf v = none := by
  have h : (withdrawnByTable v l s).waitOf v = (dropWait v s).waitOf v := waitOf_of_same (by simp [withdrawnByTable])
  rw [h, waitOf_dropWait]

/-- An end message taken leaves the visitor no WAIT (R90). -/
theorem waitOf_withdrawWait : (withdrawWait v s).waitOf v = none := by
  unfold withdrawWait
  split
  · exact waitOf_afterWait waitOf_withdrawnByTable
  · rename_i h
    cases k : s.waitOf v with
    | none => rfl
    | some r =>
      cases r with
      | wait y sp m st ph => exact absurd k (h y sp m st ph)
      | credit c m st =>
        have := List.find?_some k
        simp [isWaitOf] at this

/-- Before a presentation lookup makes a claim for a visitor, no WAIT of that visitor stands (R39, R82). -/
theorem waitOf_endStale : (endStale v l s).waitOf v = none := by
  unfold endStale
  dsimp only
  split
  · split
    · exact waitOf_withdrawnByTable
    · exact waitOf_afterWait waitOf_withdrawnByTable
  · rename_i h
    cases k : (takeWaitEnds v s).waitOf v with
    | none => rfl
    | some r =>
      cases r with
      | wait y sp m st ph => exact absurd k (h y sp m st ph)
      | credit c m st =>
        have := List.find?_some k
        simp [isWaitOf] at this

/-- With no WAIT of the visitor on the list, all it does is take the visitor's end messages. -/
theorem endStale_of_none (h : s.waitOf v = none) : endStale v l s = takeWaitEnds v s := by
  have k : (takeWaitEnds v s).waitOf v = none := h
  simp [endStale, k]

/-! ## A sponsor passage (R84, R85) -/

/-- A record joined says nothing of the credits on the list. -/
@[simp] theorem hasCredit_escortRecord {c : EscortCode} {m : Option Lane} {o : Option Cred} {d : Detail} :
    (escortRecord c m o d s).hasCredit v = s.hasCredit v := rfl

/-- A credit that joined the list stands there (R82). -/
@[simp] theorem hasCredit_append {st : Nat} : (onEscort (fun xs => xs ++ [.credit x l st]) s).hasCredit x = true := by
  simp [State.hasCredit, onEscort, isCreditOf]

/-- A change of phase leaves every credit as it was. -/
theorem any_isCreditOf_setPhase (v x : Cred) (ph : WaitPhase) (list : List EscortRec) :
    (setPhase x ph list).any (isCreditOf v) = list.any (isCreditOf v) := by
  have h (r : EscortRec) : isCreditOf v (match r with
      | .wait y sp m st p => if y == x then EscortRec.wait y sp m st ph else .wait y sp m st p
      | c => c) = isCreditOf v r := by
    cases r with
    | wait y sp m st p => dsimp only; split <;> rfl
    | credit c m st => rfl
  exact List.any_map.trans (congrArg list.any (funext h))

/-- A credit stands in a list whose WAITs changed phase exactly when it stood there before. -/
theorem credit_mem_setPhase {ph : WaitPhase} {list : List EscortRec} {m : Lane} {st : Nat} :
    .credit x m st ∈ setPhase v ph list ↔ .credit x m st ∈ list := by
  simp only [setPhase, List.mem_map]
  constructor
  · rintro ⟨r, hr, h⟩
    cases r with
    | wait y sp k st p => dsimp only at h; split at h <;> cases h
    | credit c k st' => exact h ▸ hr
  · exact fun h => ⟨_, h, rfl⟩

/-- Which credit stands after a sponsor passage dealt with it: the one that stood, or one that the room and the egress state
let it make (R84, R92). -/
theorem hasCredit_sponsorCredit : (sponsorCredit x l s).hasCredit x = true ↔
    s.hasCredit x = true ∨ s.safety.egress ≠ .egress ∧ s.escort.list.length < Config.escortCapacity := by
  unfold sponsorCredit
  split
  · simp [*]
  · split
    · split <;> simp [*]
    · simp [*]

/-- A credit renewed or made stands last on the list, with the passage's lane and time (R82, R84). -/
theorem last_sponsorCredit (h : (sponsorCredit x l s).hasCredit x = true) :
    (sponsorCredit x l s).escort.list.getLast? = some (.credit x l s.time) := by
  revert h
  unfold sponsorCredit
  split
  · simp [escortRecord, handOver, onEscort, State.onMail]
  · split
    · split
      · simp_all
      · simp [escortRecord, handOver, onEscort, State.onMail]
    · simp_all [State.hasCredit, escortRecord, handOver, State.onMail]

/-- Another sponsor's credit is left as it was (R84). -/
theorem credit_mem_sponsorCredit {m : Lane} {st : Nat} (h : v ≠ x) :
    .credit v m st ∈ (sponsorCredit x l s).escort.list ↔ .credit v m st ∈ s.escort.list := by
  unfold sponsorCredit
  (repeat' split) <;> simp [escortRecord, handOver, onEscort, State.onMail, dropCredit, isCreditOf, h]

/-- The record that a sponsor passage has for its credit (R84, R92, log entry 38). -/
theorem records_sponsorCredit : (sponsorCredit x l s).mail.records = s.mail.records ++
    (if s.hasCredit x = true then [(.escort,
        { time := s.stamp, code := .escort .creditRenewed, lane := some l, cred := some x })]
      else if Config.escortCapacity ≤ s.escort.list.length then [(.escort,
        { time := s.stamp, code := .escort .creditMade, lane := some l, cred := some x,
          detail := .items { listFull := true } [] })]
      else if s.safety.egress = .egress then []
      else [(.escort, { time := s.stamp, code := .escort .creditMade, lane := some l, cred := some x })]) := by
  unfold sponsorCredit
  split
  · rfl
  · split
    · rename_i h
      rw [if_neg (Nat.not_le.mpr h)]
      split
      · simp
      · rfl
    · rename_i h
      rw [if_pos (Nat.le_of_not_lt h)]
      rfl

/-- The record joins the records handed over, stamped with the lobby time (R93). -/
@[simp] theorem records_escortRecord {c : EscortCode} {m : Option Lane} {o : Option Cred} {d : Detail} :
    (escortRecord c m o d s).mail.records = s.mail.records ++
      [(.escort, { time := s.stamp, code := .escort c, lane := m, cred := o, detail := d })] := rfl
@[simp] theorem stamp_escortRecord {c : EscortCode} {m : Option Lane} {o : Option Cred} {d : Detail} :
    (escortRecord c m o d s).stamp = s.stamp := rfl

/-- A request of the escort unit at a display changes neither the mail, the lobby time nor the escort list (R94). -/
@[simp] theorem askEscort_mail {i : Indication} : (askEscort l i s).mail = s.mail := by
  unfold askEscort; split <;> rfl
@[simp] theorem askEscort_stamp {i : Indication} : (askEscort l i s).stamp = s.stamp := by
  unfold askEscort; split <;> rfl
@[simp] theorem askEscort_escort {i : Indication} : (askEscort l i s).escort = s.escort := by
  unfold askEscort; split <;> rfl

/-- A released WAIT's record (R85, R93). -/
def releaseRecord (t : Stamp) (c : Cred) : EscortRec → Option (Source × Record)
  | .wait v sp l _ .waiting =>
    if sp = c then
      some (.escort, { time := t, code := .escort .releasePending, lane := some l, cred := some v, detail := .cred sp })
    else none
  | _ => none

/-- The credit dealt with, the same WAITs stand to be released (R84, R85). -/
theorem releases_sponsorCredit {c : Cred} {t : Stamp} : (sponsorCredit x l s).escort.list.filterMap (releaseRecord t c)
    = s.escort.list.filterMap (releaseRecord t c) := by
  have h : ∀ r, (if (!isCreditOf x r) = true then releaseRecord t c r else none) = releaseRecord t c r := by
    intro r
    cases r with
    | wait v sp m st p => rfl
    | credit y m st => simp [releaseRecord]
  have hd : (dropCredit x s).escort.list.filterMap (releaseRecord t c) = s.escort.list.filterMap (releaseRecord t c) := by
    rw [list_dropCredit, List.filterMap_filter, funext h]
  have ha (u : State) : (onEscort (fun xs => xs ++ [.credit x l s.time]) u).escort.list.filterMap (releaseRecord t c)
      = u.escort.list.filterMap (releaseRecord t c) := by
    simp [onEscort, List.filterMap_cons, releaseRecord]
  unfold sponsorCredit
  (repeat' split)
  · exact (ha _).trans hd
  · rfl
  · exact ha _
  · rfl

/-- The waits released give one record each, in list order (R85). -/
theorem records_releaseWaits {c : Cred} {list : List EscortRec} :
    (releaseWaits c list s).mail.records = s.mail.records ++ list.filterMap (releaseRecord s.stamp c) := by
  induction list generalizing s with
  | nil => simp [releaseWaits]
  | cons r rest ih =>
    cases r with
    | credit x m st => exact ih
    | wait v sp m st ph =>
      cases ph with
      | waiting =>
        simp only [releaseWaits, ih]
        split
        · rename_i h
          have hr : releaseRecord s.stamp c (.wait v sp m st .waiting) = some (.escort,
              { time := s.stamp, code := .escort .releasePending, lane := some m, cred := some v, detail := .cred sp }) :=
            if_pos h
          simp [List.filterMap_cons_some hr]
        · rename_i h
          have hr : releaseRecord s.stamp c (.wait v sp m st .waiting) = none := if_neg h
          simp [List.filterMap_cons_none hr]
      | releasePending => exact ih
      | releasing => exact ih

/-- What every change of phase keeps of the escort list, the release of the waits keeps (R85). -/
theorem list_releaseWaits {c : Cred} {list : List EscortRec} {P : List EscortRec → Prop}
    (step : ∀ v xs, P xs → P (setPhase v .releasePending xs)) (h : P s.escort.list) :
    P (releaseWaits c list s).escort.list := by
  induction list generalizing s with
  | nil => exact h
  | cons r rest ih =>
    cases r with
    | credit x m st => exact ih h
    | wait v sp m st ph =>
      cases ph with
      | waiting =>
        simp only [releaseWaits]
        refine ih ?_
        split
        · simpa [State.onMail, escortRecord, handOver, onEscort] using step v _ h
        · exact h
      | releasePending => exact ih h
      | releasing => exact ih h

/-- No credit joins or leaves while the waits are released (R85). -/
theorem credit_mem_releaseWaits {c : Cred} {list : List EscortRec} {m : Lane} {st : Nat} :
    .credit x m st ∈ (releaseWaits c list s).escort.list ↔ .credit x m st ∈ s.escort.list :=
  list_releaseWaits (P := fun xs => .credit x m st ∈ xs ↔ .credit x m st ∈ s.escort.list)
    (fun _ _ h => credit_mem_setPhase.trans h) Iff.rfl

/-- The same credits stand while the waits are released (R85). -/
theorem hasCredit_releaseWaits {c : Cred} {list : List EscortRec} :
    (releaseWaits c list s).hasCredit x = s.hasCredit x :=
  list_releaseWaits (P := fun xs => xs.any (isCreditOf x) = s.hasCredit x)
    (fun _ _ h => (any_isCreditOf_setPhase ..).trans h) rfl

/-- A credit that stands last on the list still does so after the waits were released (R85). -/
theorem last_releaseWaits {c : Cred} {list : List EscortRec} {m : Lane} {st : Nat}
    (h : s.escort.list.getLast? = some (.credit x m st)) :
    (releaseWaits c list s).escort.list.getLast? = some (.credit x m st) :=
  list_releaseWaits (P := fun xs => xs.getLast? = some (.credit x m st))
    (fun _ _ k => by simp [setPhase, List.getLast?_map, k]) h

end Sys2Proof.Machine
end

