-- ==== Sys2Proof/Laws/Places.lean ====
section
/-!
SUPPORT. A lane's two places (R31): what of the state the places depend on, the operations that leave it as it was, and
the operations that take or free a place.
-/
namespace Sys2Proof.Machine

/-- What a lane's places depend on: its windows' number, its decision, the desk passes and the second class. -/
def placeData (s : State) (m : Lane) : Nat × Bool × PerPort (Option DeskLookup) × List SecondOp :=
  ((s.lane m).windows.length, (s.lane m).decision.isSome, s.arbiter.desk, s.arbiter.second)

/-- The places in use at a lane: its windows and its held places (R31). -/
def placesUsed (s : State) (m : Lane) : Nat := (s.lane m).windows.length + heldPlaces s m

/-- The same data, the same places in use. -/
theorem placesUsed_of_data {s t : State} {m : Lane} (h : placeData t m = placeData s m) :
    placesUsed t m = placesUsed s m := by
  simp only [placeData, Prod.mk.injEq] at h
  obtain ⟨h1, h2, h3, h4⟩ := h
  simp only [placesUsed, heldPlaces, h1, h2, h3, h4]

/-- A step that leaves the data of every lane keeps the law. -/
theorem PlacesLaw.of_data {s t : State} (h : PlacesLaw s) (k : ∀ m, placeData t m = placeData s m) : PlacesLaw t := by
  intro m
  have := placesUsed_of_data (k m)
  simp only [placesUsed] at this
  rw [this]; exact h m

/-- A change that leaves the arbiter and a lane leaves the lane's data. -/
theorem placeData_of_same {s t : State} {m : Lane} (h : Block.arbiter.same s t) (k : (Block.lane m).same s t) :
    placeData t m = placeData s m := by
  simp only [Block.same] at h k
  simp only [placeData, h, k]

variable {s : State} {m : Lane}

@[simp] theorem placeData_ite {a : Prop} [Decidable a] {x y : State} :
    placeData (if a then x else y) m = if a then placeData x m else placeData y m := by split <;> rfl

/-- A change at a lane that keeps its windows' number and its decision. -/
theorem onLane_placeData {l : Lane} {f : LaneUnit → LaneUnit}
    (h : (f (s.lane l)).windows.length = (s.lane l).windows.length)
    (k : (f (s.lane l)).decision = (s.lane l).decision) : placeData (s.onLane l f) m = placeData s m := by
  by_cases e : m = l
  · subst e; simp [placeData, h, k]
  · simp [placeData, State.lane_onLane_ne _ _ e]

@[simp] theorem onLine_placeData (l : Lane) (f : LineUnit → LineUnit) : placeData (s.onLine l f) m = placeData s m := rfl

theorem settleClear_keeps (n : Nat) (u : LaneUnit) :
    (LaneUnit.settleClear n u).windows = u.windows ∧ (LaneUnit.settleClear n u).decision = u.decision := by
  unfold LaneUnit.settleClear
  (repeat' split) <;> exact ⟨rfl, rfl⟩

@[simp] theorem onMail_placeData {f : Mail → Mail} : placeData (s.onMail f) m = placeData s m := rfl

@[simp] theorem onTable_placeData {f : TableUnit → TableUnit} : placeData (s.onTable f) m = placeData s m := rfl

@[simp] theorem onSafety_placeData {f : SafetyUnit → SafetyUnit} : placeData (onSafety f s) m = placeData s m := rfl

@[simp] theorem onBus_placeData {f : BusUnit → BusUnit} : placeData (onBus f s) m = placeData s m := rfl

@[simp] theorem onPort_placeData {p : Port} {f : PortUnit → PortUnit} : placeData (s.onPort p f) m = placeData s m := rfl

@[simp] theorem handOver_placeData {src : Source} {r : Record} : placeData (handOver src r s) m = placeData s m := by
  rfl

@[simp] theorem notify_placeData {p : Port} {n : Notice} : placeData (notify p n s) m = placeData s m := by
  rfl

@[simp] theorem notifyAll_placeData {n : Notice} : placeData (notifyAll n s) m = placeData s m := by
  rfl

@[simp] theorem reportLevel_placeData {p : Port} {n : Notice} {v : Bool} : placeData (reportLevel p n v s) m = placeData s m := by
  rfl

@[simp] theorem report_placeData {l : Lane} {q : LaneReport} : placeData (report l q s) m = placeData s m := by
  rfl

@[simp] theorem sendWithdrawal_placeData {g : Tag} : placeData (sendWithdrawal g s) m = placeData s m := by
  rfl

@[simp] theorem tellEscort_placeData {q : EscortEnd} : placeData (tellEscort q s) m = placeData s m := by
  rfl

@[simp] theorem indicate_placeData {g : Tag} {i : Indication} : placeData (indicate g i s) m = placeData s m := by
  rfl

@[simp] theorem takeRequest_placeData {p : Port} : placeData (takeRequest p s) m = placeData s m := by
  rfl

@[simp] theorem answer_placeData {p : Port} {st : Status} {body : List Byte} : placeData (answer p st body s) m = placeData s m := by
  rfl

@[simp] theorem served_placeData {q : Claimant} : placeData (served q s) m = placeData s m := by
  rfl

@[simp] theorem portServed_placeData {p : Port} : placeData (portServed p s) m = placeData s m := by
  unfold portServed
  split <;> rfl

@[simp] theorem popFirst_placeData : placeData (popFirst s) m = placeData s m := by
  rfl

@[simp] theorem claimFirst_placeData {q : FirstOp} : placeData (claimFirst q s) m = placeData s m := by
  rfl

@[simp] theorem onEntry_placeData {c : Cred} {f : Entry → Entry} : placeData (onEntry c f s) m = placeData s m := by
  rfl

@[simp] theorem onEscort_placeData {f : List EscortRec → List EscortRec} : placeData (onEscort f s) m = placeData s m := by
  rfl

@[simp] theorem ask_placeData {l : Lane} {rd : Reader} {i : Indication} : placeData (ask l rd i s) m = placeData s m := by
  cases rd <;> exact onLane_placeData rfl rfl

@[simp] theorem askBoth_placeData {l : Lane} {i : Indication} : placeData (askBoth l i s) m = placeData s m := by
  unfold askBoth
  try dsimp only
  (repeat' split) <;> simp

@[simp] theorem askEscort_placeData {l : Lane} {i : Indication} : placeData (askEscort l i s) m = placeData s m := by
  unfold askEscort
  try dsimp only
  (repeat' split) <;> simp

@[simp] theorem onWindow_placeData {l : Lane} {g : Tag} {f : Window → Window} : placeData (onWindow l g f s) m = placeData s m := by
  exact onLane_placeData (by simp [mapWindow]) rfl

@[simp] theorem showNow_placeData {l : Lane} {rd : Reader} {i : Indication} : placeData (showNow l rd i s) m = placeData s m := by
  cases rd <;> exact (onLine_placeData ..).trans (onLane_placeData rfl rfl)

@[simp] theorem settleDisplay_placeData {l : Lane} {rd : Reader} : placeData (settleDisplay l rd s) m = placeData s m := by
  have h : ∀ (t : State) (f : Display → Display), placeData (t.onLane l (fun u => u.onDisplay rd f)) m = placeData t m :=
    fun _ _ => onLane_placeData (by cases rd <;> rfl) (by cases rd <;> rfl)
  unfold settleDisplay
  try dsimp only
  (repeat' split) <;> simp [h]

@[simp] theorem clearDisplay_placeData {l : Lane} {rd : Reader} : placeData (clearDisplay l rd s) m = placeData s m := by
  cases rd <;> exact (onLine_placeData ..).trans (onLane_placeData rfl rfl)

@[simp] theorem clearDisplays_placeData {l : Lane} : placeData (clearDisplays l s) m = placeData s m := by
  unfold clearDisplays
  try dsimp only
  (repeat' split) <;> simp

@[simp] theorem askEnd_placeData {l : Lane} {w : Window} {o : WinOutcome} : placeData (askEnd l w o s) m = placeData s m := by
  unfold askEnd
  try dsimp only
  (repeat' split) <;> simp

@[simp] theorem endWindow_placeData {l : Lane} {w : Window} {o : WinOutcome} : placeData (endWindow l w o s) m = placeData s m := by
  unfold endWindow
  try dsimp only
  (repeat' split) <;> simp

@[simp] theorem endWindows_placeData {l : Lane} {o : WinOutcome} {ws : List Window} : placeData (endWindows l o ws s) m = placeData s m := by
  induction ws generalizing s with
  | nil => rfl
  | cons w r ih => rw [endWindows, ih, endWindow_placeData]

@[simp] theorem endWhere_placeData {l : Lane} {f : Window → Bool} {o : WinOutcome} : placeData (endWhere l f o s) m = placeData s m := by
  unfold endWhere
  try dsimp only
  (repeat' split) <;> simp

@[simp] theorem endAll_placeData {l : Lane} {o : WinOutcome} : placeData (endAll l o s) m = placeData s m := by
  unfold endAll
  try dsimp only
  (repeat' split) <;> simp

@[simp] theorem reservationRecord_placeData {l : Lane} {st : Status} : placeData (reservationRecord l st s) m = placeData s m := by
  unfold reservationRecord
  try dsimp only
  (repeat' split) <;> simp

@[simp] theorem endReservation_placeData {l : Lane} {f : Reservation → Bool} {st : Status} {body : List Byte} : placeData (endReservation l f st body s) m = placeData s m := by
  unfold endReservation
  (repeat' split) <;> simp [onLane_placeData]

@[simp] theorem recordState_placeData {l : Lane} {x y : LaneState} : placeData (recordState l x y s) m = placeData s m := by
  unfold recordState
  try dsimp only
  (repeat' split) <;> simp

@[simp] theorem changeState_placeData {l : Lane} {x : LaneState} : placeData (changeState l x s) m = placeData s m := by
  have h : ∀ t : State, placeData (t.onLane l (fun u => u.enter x (s.after Config.obstructionLimit))) m = placeData t m :=
    fun _ => onLane_placeData rfl rfl
  unfold changeState
  dsimp only
  (repeat' split) <;> simp [h]

@[simp] theorem openWindow_placeData {l : Lane} {w : Window} : placeData (openWindow l w s) m = placeData s m := by
  have h : ∀ t : State, placeData (t.onLane l (fun u =>
    { u with travel := some w.dir, paceMark := if w.dir = .entry then some t.time else u.paceMark })) m = placeData t m :=
    fun _ => onLane_placeData rfl rfl
  unfold openWindow
  dsimp only
  rw [ask_placeData, h, onWindow_placeData]

@[simp] theorem paceTest_placeData {l : Lane} {w : Window} : placeData (paceTest l w s) m = placeData s m := by
  unfold paceTest
  try dsimp only
  (repeat' split) <;> simp

@[simp] theorem startWindow_placeData {l : Lane} {w : Window} : placeData (startWindow l w s) m = placeData s m := by
  unfold startWindow
  try dsimp only
  (repeat' split) <;> simp

@[simp] theorem settleWindows_placeData {l : Lane} {ws : List Window} : placeData (settleWindows l ws s) m = placeData s m := by
  induction ws generalizing s with
  | nil => rfl
  | cons w r ih => rw [settleWindows, ih] <;> split <;> simp

@[simp] theorem leaveAssigning_placeData {l : Lane} {w : Window} : placeData (leaveAssigning l w s) m = placeData s m := by
  unfold leaveAssigning
  try dsimp only
  (repeat' split) <;> simp

@[simp] theorem settleTravel_placeData {l : Lane} : placeData (settleTravel l s) m = placeData s m := by
  exact onLane_placeData (by split <;> rfl) (by split <;> rfl)

@[simp] theorem settleWanted_placeData {l : Lane} : placeData (settleWanted l s) m = placeData s m := by
  unfold settleWanted
  dsimp only
  split
  · rfl
  · exact (onLine_placeData ..).trans (onLane_placeData rfl rfl)

@[simp] theorem endEvent_placeData {l : Lane} : placeData (endEvent l s) m = placeData s m := by
  have h : ∀ (t : State) (n : Nat), placeData (t.onLane l (LaneUnit.settleClear n)) m = placeData t m :=
    fun _ _ => onLane_placeData (by rw [(settleClear_keeps ..).1]) (settleClear_keeps ..).2
  unfold endEvent
  dsimp only
  simp only [settleDisplay_placeData, settleWanted_placeData, h]
  split <;> simp

@[simp] theorem raiseAlarm_placeData {l : Lane} {q : AlarmReason} : placeData (raiseAlarm l q s) m = placeData s m := by
  have h : ∀ t : State, placeData (t.onLane l (fun u =>
    { u with counters := u.counters.alarm q, acknowledged := false, clearDue := none, alarmReason := some q })) m
      = placeData t m := fun _ => onLane_placeData rfl rfl
  unfold raiseAlarm
  simp [h]

@[simp] theorem countDenial_placeData {l : Lane} : placeData (countDenial l s) m = placeData s m := by
  exact onLane_placeData rfl rfl

@[simp] theorem countLineError_placeData {l : Lane} : placeData (countLineError l s) m = placeData s m := by
  exact onLane_placeData rfl rfl

@[simp] theorem setCalls_placeData {q : List CallRec} : placeData (setCalls q s) m = placeData s m := by
  unfold setCalls
  dsimp only
  split <;> rfl

@[simp] theorem countLoss_placeData : placeData (countLoss s) m = placeData s m := by
  rfl

@[simp] theorem postCall_placeData {w : Window} : placeData (postCall w s) m = placeData s m := by
  unfold postCall
  try dsimp only
  (repeat' split) <;> simp
/-! ## The places in use, as a sum -/

/-- The desk passes that hold a place at a lane. -/
def deskHeld (desk : PerPort (Option DeskLookup)) (m : Lane) : Nat :=
  (Port.all.filter (fun p => match desk.get p with | some d => d.lane == m | none => false)).length

/-- The escort releases that hold a place at a lane (R86). -/
def releasesHeld (ops : List SecondOp) (m : Lane) : Nat :=
  (ops.filter (fun x => match x with | .release _ n => n == m | .lookup _ => false)).length

theorem placesUsed_eq (s : State) (m : Lane) :
    placesUsed s m = (s.lane m).windows.length + ((if (s.lane m).decision.isSome then 1 else 0)
      + deskHeld s.arbiter.desk m + releasesHeld s.arbiter.second m) := rfl

theorem freePlaces_eq (s : State) (m : Lane) : freePlaces s m = Config.placesPerLane - placesUsed s m := rfl

/-- A desk pass that takes a place adds one at its lane at most, and none elsewhere. -/
theorem deskHeld_set_some (desk : PerPort (Option DeskLookup)) (p : Port) (d : DeskLookup) (m : Lane) :
    deskHeld (desk.set p (some d)) m ≤ deskHeld desk m + (if d.lane = m then 1 else 0) := by
  cases p <;> by_cases h : d.lane = m <;>
    simp only [deskHeld, Port.all, PerPort.set, PerPort.get, h, List.filter_cons, List.filter_nil, if_true, if_false] <;>
    simp [h] <;> (repeat' split) <;> simp <;> omega

/-- A desk pass taken at the table gives its place back. -/
theorem deskHeld_set_none {desk : PerPort (Option DeskLookup)} {p : Port} {d : DeskLookup} (h : desk.get p = some d)
    (m : Lane) : deskHeld (desk.set p none) m + (if d.lane = m then 1 else 0) = deskHeld desk m := by
  cases p <;> simp only [PerPort.get] at h <;> by_cases e : d.lane = m <;>
    simp only [deskHeld, Port.all, PerPort.set, PerPort.get, h, e, List.filter_cons, List.filter_nil] <;>
    simp [e] <;> (repeat' split) <;> simp

/-- The oldest operation of the second class, taken, gives back the place that a release held (R86). -/
theorem popSecond_release_places {v : Cred} {l : Lane} (h : s.arbiter.second.head? = some (.release v l)) (m : Lane) :
    placesUsed (popSecond s) m + (if l = m then 1 else 0) = placesUsed s m := by
  cases hs : s.arbiter.second with
  | nil => simp [hs] at h
  | cons x r =>
    simp only [hs, List.head?_cons, Option.some.injEq] at h
    subst h
    have hl : (popSecond s).lane m = s.lane m := rfl
    have ha : (popSecond s).arbiter.desk = s.arbiter.desk := rfl
    have hr : (popSecond s).arbiter.second = r := by simp [popSecond, hs]
    rw [placesUsed_eq, placesUsed_eq, hl, ha, hr, hs]
    by_cases e : l = m <;> simp [releasesHeld, e] <;> omega

/-- The second class without its oldest operation holds no more places. -/
theorem popSecond_places (m : Lane) : placesUsed (popSecond s) m ≤ placesUsed s m := by
  have hl : (popSecond s).lane m = s.lane m := rfl
  have ha : (popSecond s).arbiter.desk = s.arbiter.desk := rfl
  have hr : releasesHeld (popSecond s).arbiter.second m ≤ releasesHeld s.arbiter.second m := by
    simp only [popSecond, State.onArbiter_fields, releasesHeld]
    exact (List.Sublist.filter _ (List.tail_sublist _)).length_le
  rw [placesUsed_eq, placesUsed_eq, hl, ha]
  omega

/-- A decision that returns to IDLE gives back the place it held (R41). -/
theorem clearDecision_places {l : Lane} :
    placesUsed (clearDecision l s) m + (if m = l ∧ (s.lane l).decision.isSome then 1 else 0) = placesUsed s m := by
  by_cases e : m = l
  · subst e
    by_cases k : (s.lane m).decision.isSome <;> simp [placesUsed_eq, clearDecision, k] <;> omega
  · simp [placesUsed_eq, clearDecision, e, State.lane_onLane_ne _ _ e]

/-- The law in terms of the places in use. -/
theorem placesLaw_iff : PlacesLaw s ↔ ∀ m, placesUsed s m ≤ Config.placesPerLane := Iff.rfl

/-! ## Operations that take a place -/

/-- One place held where one is free keeps the law. -/
theorem hold_law {l : Lane} {t : State} (h : PlacesLaw s) (hl : placesUsed s l < Config.placesPerLane)
    (hw : ∀ m, (t.lane m).windows.length = (s.lane m).windows.length ∧
      (t.lane m).decision.isSome = (s.lane m).decision.isSome)
    (hh : ∀ m, deskHeld t.arbiter.desk m + releasesHeld t.arbiter.second m
      ≤ deskHeld s.arbiter.desk m + releasesHeld s.arbiter.second m + (if l = m then 1 else 0)) : PlacesLaw t := by
  intro m
  change placesUsed t m ≤ _
  have hm : placesUsed s m ≤ _ := h m
  have := hh m
  rw [placesUsed_eq] at hm hl ⊢
  rw [(hw m).1, (hw m).2]
  by_cases e : l = m
  · subst e; simp only [if_true] at this; omega
  · simp only [e, if_false] at this; omega

/-- A desk pass that takes a free place keeps the law (R45, R47). -/
theorem deskHold_law {p : Port} {d : DeskLookup} (h : PlacesLaw s) (hl : placesUsed s d.lane < Config.placesPerLane) :
    PlacesLaw (s.onArbiter (fun a => { a with desk := a.desk.set p (some d) })) := by
  refine hold_law h hl (fun m => ⟨rfl, rfl⟩) (fun m => ?_)
  have := deskHeld_set_some s.arbiter.desk p d m
  change deskHeld (s.arbiter.desk.set p (some d)) m + releasesHeld s.arbiter.second m ≤ _
  omega

/-- An escort release that takes a free place keeps the law (R86). -/
theorem claimRelease_law {v : Cred} {l : Lane} (h : PlacesLaw s) (hl : placesUsed s l < Config.placesPerLane) :
    PlacesLaw (claimSecond (.release v l) s) := by
  refine hold_law h hl (fun m => ⟨rfl, rfl⟩) (fun m => ?_)
  change deskHeld s.arbiter.desk m + releasesHeld (s.arbiter.second ++ [.release v l]) m ≤ _
  by_cases e : l = m <;> simp [releasesHeld, List.filter_append, e] <;> omega

/-- An offered place was free (R72). -/
theorem offerPlace_law {l : Lane} (h : PlacesLaw s) : PlacesLaw (offerPlace l s) := by
  unfold offerPlace
  split
  · exact h
  · rename_i hf
    simp only [not_or] at hf
    have hlt : placesUsed s l < Config.placesPerLane := by
      have := hf.1; rw [freePlaces_eq] at this; omega
    split
    · have hd : ∀ m, placeData (s.onLane l (fun u => { u with reservation := none })) m = placeData s m :=
        fun m => onLane_placeData rfl rfl
      exact deskHold_law (h.of_data hd) (by rw [placesUsed_of_data (hd _)]; exact hlt)
    · split
      · exact h
      · split
        · exact claimRelease_law (h.of_data (fun _ => by simp)) (by rw [placesUsed_of_data (onEscort_placeData ..)]; exact hlt)
        · exact h

theorem offerPlaces_law {l : Lane} (h : PlacesLaw s) : PlacesLaw (offerPlaces l s) := offerPlace_law (offerPlace_law h)

/-- A window made where a place is free keeps the law (R31, R40). -/
theorem createWindow_law {l : Lane} {e : Entry} {d : Direction} {o : Origin} {k : Bool} (h : PlacesLaw s)
    (hl : placesUsed s l < Config.placesPerLane) : PlacesLaw (createWindow l e d o k s) := by
  have key : ∀ m, placesUsed (createWindow l e d o k s) m = placesUsed s m + (if m = l then 1 else 0) := by
    intro m
    have h1 : placesUsed (createWindow l e d o k s) m
        = placesUsed ((postCall (newWindow s l e d o k) s).onLane l (fun u =>
            { u with windows := u.windows ++ [newWindow s l e d o k], nextSerial := u.nextSerial + 1 })) m :=
      placesUsed_of_data (by simp [createWindow])
    have h2 : placesUsed (postCall (newWindow s l e d o k) s) m = placesUsed s m := placesUsed_of_data (by simp)
    rw [h1, ← h2]
    by_cases e : m = l
    · subst e; simp [placesUsed_eq]; omega
    · simp [placesUsed_eq, State.lane_onLane_ne _ _ e, e]
  intro m
  change placesUsed _ m ≤ _
  rw [key]
  have := h m
  change placesUsed s m ≤ _ at this
  by_cases e : m = l
  · subst e; simp; omega
  · simp [e]; omega

/-! ## Operations that offer places -/

theorem endEvent_law {l : Lane} (h : PlacesLaw s) : PlacesLaw (endEvent l s) := h.of_data (fun _ => endEvent_placeData)

theorem settleLane_law {l : Lane} (h : PlacesLaw s) : PlacesLaw (settleLane l s) := endEvent_law (offerPlaces_law h)

theorem afterWait_law {l : Lane} {ph : WaitPhase} (h : PlacesLaw s) : PlacesLaw (afterWait l ph s) := by
  unfold afterWait
  split
  · exact settleLane_law h
  · exact h.of_data (fun _ => by simp)

@[simp] theorem escortRecord_placeData {k : EscortCode} {x : Option Lane} {y : Option Cred} {d : Detail} :
    placeData (escortRecord k x y d s) m = placeData s m := rfl

@[simp] theorem expireWait_placeData {v sp : Cred} {l : Lane} : placeData (expireWait v sp l s) m = placeData s m := by
  simp [expireWait, dropWait]

theorem timeoutWait_law {v : Cred} (h : PlacesLaw s) : PlacesLaw (timeoutWait v s) := by
  unfold timeoutWait
  split
  · exact afterWait_law (h.of_data (fun _ => by simp))
  · exact h

theorem backToPending_law {v : Cred} (h : PlacesLaw s) : PlacesLaw (backToPending v s) := by
  unfold backToPending
  split
  · split
    · dsimp only
      split
      · exact settleLane_law (h.of_data (fun _ => by simp))
      · exact h.of_data (fun _ => by simp)
    · exact h.of_data (fun _ => by simp)
  · exact h

theorem moveWait_law {v : Cred} {l : Lane} (h : PlacesLaw s) : PlacesLaw (moveWait v l s) := by
  unfold moveWait
  split
  · dsimp only
    refine afterWait_law ?_
    have k : PlacesLaw (onEscort (setWaitLane v l) s) := h.of_data (fun _ => by simp)
    split
    · exact (backToPending_law (v := v) k).of_data (fun _ => by simp)
    · exact k.of_data (fun _ => by simp)
  · exact h

@[simp] theorem expireAll_placeData {xs : List EscortRec} : placeData (expireAll xs s) m = placeData s m := by
  induction xs generalizing s with
  | nil => rfl
  | cons r rest ih =>
    unfold expireAll
    rw [ih]
    split
    · cases r <;> simp [expireCredit, dropCredit]
    · rfl

theorem settleWaitLanes_law {xs : List EscortRec} (h : PlacesLaw s) : PlacesLaw (settleWaitLanes xs s) := by
  induction xs generalizing s with
  | nil => exact h
  | cons r rest ih => cases r <;> simp only [settleWaitLanes] <;> first | exact ih (afterWait_law h) | exact ih h

theorem answer_law {p : Port} {st : Status} {body : List Byte} (h : PlacesLaw s) : PlacesLaw (answer p st body s) := h

theorem setEscort_law {p : Port} {n : Nat} (h : PlacesLaw s) : PlacesLaw (setEscort p n s) := by
  unfold setEscort
  split
  · exact h.of_data (fun _ => by simp)
  · have k : PlacesLaw { s with escort := { s.escort with interval := n } } := h
    exact answer_law (settleWaitLanes_law (k.of_data (fun _ => expireAll_placeData)))

theorem backToReady_law {l : Lane} (h : PlacesLaw s) : PlacesLaw (backToReady l s) :=
  offerPlaces_law (h.of_data (fun _ => by simp))

@[simp] theorem withdrawnByTable_placeData {v : Cred} {l : Lane} :
    placeData (withdrawnByTable v l s) m = placeData s m := by simp [withdrawnByTable, dropWait]

theorem withdrawWait_law {v : Cred} (h : PlacesLaw s) : PlacesLaw (withdrawWait v s) := by
  unfold withdrawWait
  split
  · exact afterWait_law (h.of_data (fun _ => by simp))
  · exact h

/-- A place offered at one lane takes none at another. -/
theorem offerPlace_elsewhere {l : Lane} (e : m ≠ l) : placesUsed (offerPlace l s) m ≤ placesUsed s m := by
  unfold offerPlace
  split
  · exact Nat.le_refl _
  · split
    · rename_i r _
      have := deskHeld_set_some s.arbiter.desk r.port ⟨r.cred, l, r.dir, true⟩ m
      rw [placesUsed_eq, placesUsed_eq]
      simp only [Ne.symm e, if_false] at this
      simp [State.lane_onLane_ne _ _ e]
      omega
    · split
      · exact Nat.le_refl _
      · split
        · rename_i v _ _ _ _ _
          have k : placesUsed (onEscort (setPhase v .releasing) s) m = placesUsed s m :=
            placesUsed_of_data (onEscort_placeData ..)
          rw [← k, placesUsed_eq, placesUsed_eq]
          simp [claimSecond, releasesHeld, Ne.symm e]
        · exact Nat.le_refl _

theorem afterWait_elsewhere {l : Lane} {ph : WaitPhase} (e : m ≠ l) :
    placesUsed (afterWait l ph s) m ≤ placesUsed s m := by
  unfold afterWait settleLane offerPlaces
  split
  · rw [placesUsed_of_data endEvent_placeData]
    exact Nat.le_trans (offerPlace_elsewhere e) (offerPlace_elsewhere e)
  · exact Nat.le_of_eq (placesUsed_of_data endEvent_placeData)

theorem endStale_law {v : Cred} {l : Lane} (h : PlacesLaw s) : PlacesLaw (endStale v l s) := by
  have k : PlacesLaw (takeWaitEnds v s) := h
  unfold endStale
  dsimp only
  split
  · split
    · exact k.of_data (fun _ => by simp)
    · exact afterWait_law (k.of_data (fun _ => by simp))
  · exact k

theorem endStale_places {v : Cred} {l : Lane} : placesUsed (endStale v l s) l ≤ placesUsed s l := by
  have k : placesUsed (takeWaitEnds v s) l = placesUsed s l := rfl
  unfold endStale
  dsimp only
  split
  · split
    · exact Nat.le_of_eq ((placesUsed_of_data withdrawnByTable_placeData).trans k)
    · rename_i e
      exact Nat.le_trans (afterWait_elsewhere (Ne.symm e))
        (Nat.le_of_eq ((placesUsed_of_data withdrawnByTable_placeData).trans k))
  · exact Nat.le_of_eq k

theorem moduleAgreed_law {l : Lane} (h : PlacesLaw s) : PlacesLaw (moduleAgreed l s) := by
  unfold moduleAgreed
  dsimp only
  split
  · split
    · exact h.of_data (fun _ => by simp)
    · exact endEvent_law (backToReady_law h)
  · exact endEvent_law h

@[simp] theorem moduleLost_placeData {l : Lane} {x : Slot} : placeData (moduleLost l x s) m = placeData s m := by
  unfold moduleLost leafLost readerLost
  (repeat' split) <;> simp

@[simp] theorem closeDirections_placeData {l : Lane} {lost : Direction → Bool} :
    placeData (closeDirections l lost s) m = placeData s m := by simp [closeDirections]

theorem modeChanged_law {l : Lane} {x y : Mode} (h : PlacesLaw s) : PlacesLaw (modeChanged l x y s) := by
  unfold modeChanged
  dsimp only
  have k : PlacesLaw (closeDirections l (loses x y) s) := h.of_data (fun _ => by simp)
  split
  · exact offerPlaces_law k
  · exact k

theorem applySettings_law {l : Lane} {x : LaneSettings} (h : PlacesLaw s) : PlacesLaw (applySettings l x s) := by
  have k : PlacesLaw (s.onLane l (fun u => { u with settings := x })) := h.of_data (fun _ => onLane_placeData rfl rfl)
  unfold applySettings
  dsimp only
  refine endEvent_law ?_
  split
  · exact backToReady_law (modeChanged_law k)
  · exact modeChanged_law k

theorem bankModeChanged_law {x y : Mode} {ls : List Lane} (h : PlacesLaw s) : PlacesLaw (bankModeChanged x y ls s) := by
  induction ls generalizing s with
  | nil => exact h
  | cons l r ih =>
    rw [bankModeChanged]
    refine ih ?_
    split
    · exact endEvent_law (modeChanged_law h)
    · exact h

/-- A removed window frees its place (R71). -/
theorem dropWindow_law {l : Lane} {f : Window → Bool} (h : PlacesLaw s) :
    PlacesLaw (s.onLane l (fun u => { u with windows := u.windows.filter f })) := by
  intro m
  have := h m
  have hh : heldPlaces (s.onLane l (fun u => { u with windows := u.windows.filter f })) m = heldPlaces s m := by
    by_cases e : m = l
    · subst e; simp [heldPlaces]
    · simp [heldPlaces, State.lane_onLane_ne _ _ e]
  rw [hh]
  by_cases e : m = l
  · subst e
    have := List.length_filter_le f (s.lane m).windows
    simp only [State.lane_onLane_self]
    omega
  · rw [State.lane_onLane_ne _ _ e]; exact this

@[simp] theorem settleServing_placeData {l : Lane} : placeData (settleServing l s) m = placeData s m := by
  unfold settleServing
  split <;> simp

@[simp] theorem endCall_placeData {w : Window} : placeData (endCall w s) m = placeData s m := by
  unfold endCall postCancel dropCall dispatchRecord
  (repeat' split) <;> simp

theorem removeWindow_law {l : Lane} {w : Window} {r : PostingResult} (h : PlacesLaw s) :
    PlacesLaw (removeWindow l w r s) := by
  have k := dropWindow_law (l := l) (f := fun x => x.tag != w.tag) h
  have hp : ∀ (t : State) (m : Lane), placeData (handPassage w r t) m = placeData t m := fun _ _ => rfl
  have hr : ∀ (o : WinOutcome) (b : Bool) (t : State) (m : Lane), placeData (windowRecord w o b t) m = placeData t m :=
    fun _ _ _ _ => rfl
  unfold removeWindow
  dsimp only
  exact settleLane_law (k.of_data (fun _ => by (repeat' split) <;> simp [hp, hr]))

/-! ## The decision unit and the table's creations -/

/-- A presentation that starts a decision holds a free place (R31). -/
theorem startDecision_law {l : Lane} {p : Presentation} (h : PlacesLaw s) : PlacesLaw (startDecision l p s) := by
  have refused : ∀ v : Verdict, (∀ (u : State) (m : Lane), placeData (verdictEffect l p.dir v u) m = placeData u m) →
      PlacesLaw (endEvent l (giveVerdict l p.dir p.cred v s)) := by
    intro v hv
    refine h.of_data (fun m => ?_)
    unfold giveVerdict verdictRecord
    rw [endEvent_placeData]
    dsimp only
    (repeat' split) <;> simp [hv]
  unfold startDecision
  split
  · exact h.of_data (fun _ => by simp)
  · split
    · refine refused _ (fun u m => ?_)
      unfold laneRefusal
      split <;> rfl
    · split
      · exact refused _ (fun u m => rfl)
      · rename_i hd _ hroom
        have hfree : placesUsed s l < Config.placesPerLane := by
          have := freePlaces_eq s l
          simp only [hasRoom, Bool.not_eq_true', Bool.not_eq_false, decide_eq_true_eq] at hroom
          omega
        have key : ∀ m, placesUsed (claimSecond (.lookup l) (s.onLane l (fun u => { u with decision := some p }))) m
            = placesUsed s m + (if m = l then 1 else 0) := by
          intro m
          by_cases e : m = l
          · subst e
            simp only [Bool.not_eq_true, Option.isSome_eq_false_iff, Option.isNone_iff_eq_none] at hd
            rw [placesUsed_eq, placesUsed_eq]
            simp [claimSecond, releasesHeld, hd]
            omega
          · rw [placesUsed_eq, placesUsed_eq]
            simp [claimSecond, releasesHeld, State.lane_onLane_ne _ _ e, e]
        intro m
        change placesUsed _ m ≤ _
        rw [key]
        have := h m
        change placesUsed s m ≤ _ at this
        by_cases e : m = l
        · subst e; simp; omega
        · simp [e]; omega

/-- A verdict's effect keeps the law: a grant makes its window where a place is free. -/
theorem giveVerdict_law {l : Lane} {d : Direction} {c : Cred} {v : Verdict} (h : PlacesLaw s)
    (hl : placesUsed s l < Config.placesPerLane) : PlacesLaw (giveVerdict l d c v s) := by
  have h' : PlacesLaw (verdictRecord l d c v s) := h
  have k : PlacesLaw (verdictEffect l d v (verdictRecord l d c v s)) := by
    unfold verdictEffect
    split
    · exact createWindow_law (endStale_law h') (Nat.lt_of_le_of_lt endStale_places hl)
    · exact endStale_law h'
    · exact moveWait_law h'
    · exact h'
  exact k.of_data (fun _ => by unfold giveVerdict; dsimp only; (repeat' split) <;> simp)

theorem lookupAtTable_law {l : Lane} {p : Presentation} (h : PlacesLaw s) (hd : (s.lane l).decision.isSome = true) :
    PlacesLaw (lookupAtTable l p s) := by
  have hc := fun m => clearDecision_places (s := s) (l := l) (m := m)
  have h' : PlacesLaw (clearDecision l s) := fun m => by
    have := hc m; have := h m
    change placesUsed s m ≤ _ at this
    change placesUsed _ m ≤ _
    omega
  have hl : placesUsed (clearDecision l s) l < Config.placesPerLane := by
    have h1 := hc l
    have h2 := h l
    change placesUsed s l ≤ _ at h2
    rw [if_pos ⟨rfl, hd⟩] at h1
    omega
  have k := giveVerdict_law (d := p.dir) (c := p.cred) (v := lookupVerdict s l p) h' hl
  unfold lookupAtTable
  dsimp only
  split
  · exact endEvent_law k
  · exact settleLane_law k

theorem releaseAtTable_law {v : Cred} {l : Lane} (h : PlacesLaw s) (hl : placesUsed s l < Config.placesPerLane) :
    PlacesLaw (releaseAtTable v l s) := by
  have refuse : PlacesLaw (settleLane l (refuseWait v l s)) :=
    settleLane_law (h.of_data (fun _ => by simp [refuseWait, dropWait]))
  unfold releaseAtTable
  split
  · split
    · exact settleLane_law (backToPending_law h)
    · exact settleLane_law h
  · split
    · exact settleLane_law (endEvent_law (backToPending_law h))
    · split
      · split
        · refine endEvent_law (createWindow_law ?_ ?_)
          · exact h
          · exact hl
        · exact refuse
      · exact refuse

theorem afterDeskWait_law {w : Option EscortRec} (h : PlacesLaw s) : PlacesLaw (afterDeskWait w s) := by
  unfold afterDeskWait
  split
  · exact afterWait_law h
  · exact h

@[simp] theorem reservedRecord_placeData {d : DeskLookup} {st : Status} :
    placeData (reservedRecord d st s) m = placeData s m := by
  unfold reservedRecord; split <;> simp

theorem reservedRecord_law {d : DeskLookup} {st : Status} (h : PlacesLaw s) : PlacesLaw (reservedRecord d st s) :=
  h.of_data (fun _ => reservedRecord_placeData)

theorem deskAtTable_law {p : Port} {d : DeskLookup} (h : PlacesLaw s) (hl : placesUsed s d.lane < Config.placesPerLane) :
    PlacesLaw (deskAtTable p d s) := by
  unfold deskAtTable
  split
  · exact settleLane_law (h.of_data (fun _ => by simp))
  · exact settleLane_law (h.of_data (fun _ => by simp [denyDesk, deskRecord]))
  · have he : ∀ (t : State) (e : Entry) (g : Tag) (m : Lane), placeData (endWaitByDesk p e g t) m = placeData t m := by
      intro t e g m; unfold endWaitByDesk dropWait; split <;> simp
    have hr : ∀ (e : Option Entry) (g : Option Tag) (b : Bool) (r : Option DenyReason) (t : State) (m : Lane),
        placeData (deskRecord p d e g b r t) m = placeData t m := fun _ _ _ _ _ _ => rfl
    unfold grantDesk
    dsimp only
    refine endEvent_law (afterDeskWait_law (reservedRecord_law (answer_law ?_)))
    refine createWindow_law (h.of_data (fun _ => by simp [he, hr])) ?_
    refine Nat.lt_of_le_of_lt (Nat.le_of_eq (placesUsed_of_data (s := s) ?_)) hl
    simp [he, hr]

theorem deskPassAt_law {p : Port} {c : Cred} {l : Lane} {d : Direction} (h : PlacesLaw s) :
    PlacesLaw (deskPassAt p c l d s) := by
  unfold deskPassAt
  dsimp only
  split
  · exact h.of_data (fun _ => by simp)
  · split
    · exact h.of_data (fun _ => by simp [denyDesk, deskRecord])
    · split
      · rename_i hf
        refine deskHold_law h ?_
        have := freePlaces_eq s l
        change placesUsed s l < _
        omega
      · split
        · exact h.of_data (fun _ => by simp)
        · exact h.of_data (fun _ => onLane_placeData rfl rfl)

/-! ## The lane lines -/

@[simp] theorem onSlot_placeData {l : Lane} {x : Slot} {f : SlotRec → SlotRec} :
    placeData (onSlot l x f s) m = placeData s m := rfl

@[simp] theorem lineRecord_placeData {l : Lane} {c : LaneCode} {x : Slot} {k : Marks} {bs : List Byte} :
    placeData (lineRecord l c x k bs s) m = placeData s m := rfl

@[simp] theorem unanswered_placeData {l : Lane} {x : Slot} {k : SentKind} :
    placeData (unanswered l x k s) m = placeData s m := by
  unfold unanswered missPoll loseSlot noAnswer
  (repeat' split) <;> simp

@[simp] theorem refuseSlot_placeData {l : Lane} {x : Slot} {w : RefusalReason} :
    placeData (refuseSlot l x w s) m = placeData s m := by
  unfold refuseSlot
  dsimp only
  split <;> simp

@[simp] theorem takeBad_placeData {l : Lane} {a : Await} {r : Bool} : placeData (takeBad l a r s) m = placeData s m := by
  unfold takeBad Await.unlessVoid
  (repeat' split) <;> simp

@[simp] theorem jabberSlot_placeData {l : Lane} {x : Slot} : placeData (jabberSlot l x s) m = placeData s m := by
  unfold jabberSlot
  dsimp only
  split <;> simp

theorem settleRound_law {l : Lane} {x : Slot} {f : Bool} {q : Option Profile} (h : PlacesLaw s) :
    PlacesLaw (settleRound l x f q s) := by
  unfold settleRound
  split
  · exact moduleAgreed_law h
  · exact h.of_data (fun _ => by simp)

theorem takePolled_law {l : Lane} {x : Slot} {g : GoodReply} (h : PlacesLaw s) : PlacesLaw (takePolled l x g s) := by
  unfold takePolled
  split
  · unfold takePresentation
    (repeat' split)
    · exact h.of_data (fun _ => by simp)
    · exact h.of_data (fun _ => by simp)
    · exact startDecision_law h
  · exact h
  · exact h

theorem takeGood_law {l : Lane} {a : Await} {g : GoodReply} (h : PlacesLaw s) : PlacesLaw (takeGood l a g s) := by
  unfold takeGood
  split
  · exact settleRound_law h
  · exact settleRound_law h
  · exact h
  · exact takePolled_law h
  · have k : PlacesLaw (inferSlot l a.slot s) := by
      unfold inferSlot
      exact settleRound_law h
    dsimp only
    split
    · exact takePolled_law k
    · exact k

@[simp] theorem runSlots_placeData {l : Lane} {c : Collisions} {xs : List Slot} :
    placeData (runSlots l c xs s) m = placeData s m := by
  induction xs generalizing s with
  | nil => rfl
  | cons x r ih =>
    unfold runSlots
    split
    · exact ih
    · dsimp only
      split
      · rw [ih]; simp
      · rfl

@[simp] theorem startCycle_placeData {l : Lane} {c : Collisions} : placeData (startCycle l c s) m = placeData s m := by
  have h1 : ∀ t : State, placeData (sendCommand l c t) m = placeData t m := by
    intro t; unfold sendCommand; (repeat' split) <;> first | rfl | simp
  have h2 : ∀ (rd : Reader) (n : Nat) (t : State), placeData (sendShow l rd n c t) m = placeData t m := by
    intro rd n t; unfold sendShow; (repeat' split) <;> first | rfl | simp
  unfold startCycle
  rw [runSlots_placeData, h2, h2, h1]
  rfl

/-! ## The operations that leave the arbiter and the lanes -/

variable {l : Lane} {x : Slot} {p : Port} {w : Window} {o : WinOutcome} {i : Indication} {rd : Reader} {e : Entry}
  {d : Direction} {c : Cred} {st : Status} {body : List Byte} {r : Record}

@[simp] theorem addRef_placeData : placeData (addRef c s) m = placeData s m :=
  placeData_of_same (by simp) (by simp)

@[simp] theorem dropRef_placeData : placeData (dropRef c s) m = placeData s m :=
  placeData_of_same (by simp) (by simp)

@[simp] theorem removeEntry_placeData : placeData (removeEntry e s) m = placeData s m :=
  placeData_of_same (by simp) (by simp)

variable {es : List Entry} {n : Nat} {f force : Bool} {q : WalkRequest} {cl : ClassSet} {is : IssuerSet} {todo : List Cred}

@[simp] theorem tableRecord_placeData {k : TableCode} {c : Option Cred} {d : Detail} :
    placeData (tableRecord k c d s) m = placeData s m :=
  placeData_of_same (by simp) (by simp)

@[simp] theorem handleReferring_placeData : placeData (handleReferring e c s) m = placeData s m :=
  placeData_of_same (by simp) (by simp)

@[simp] theorem setWalk_placeData {x : Option Walk} : placeData (setWalk x s) m = placeData s m :=
  placeData_of_same (by simp) (by simp)

@[simp] theorem askWalk_placeData : placeData (askWalk q s) m = placeData s m :=
  placeData_of_same (by simp) (by simp)

@[simp] theorem endWalk_placeData : placeData (endWalk s) m = placeData s m :=
  placeData_of_same (by simp) (by simp)

@[simp] theorem addEntry_placeData : placeData (addEntry e s) m = placeData s m :=
  placeData_of_same (by simp) (by simp)

@[simp] theorem moveRefs_placeData {x y : Option Cred} : placeData (moveRefs x y s) m = placeData s m :=
  placeData_of_same (by simp) (by simp)

@[simp] theorem applyModify_placeData {e' : Entry} : placeData (applyModify e e' s) m = placeData s m :=
  placeData_of_same (by simp) (by simp)

@[simp] theorem insertEntry_placeData {im : InsertImage} : placeData (insertEntry p im s) m = placeData s m :=
  placeData_of_same (by simp) (by simp)

@[simp] theorem modifyEntry_placeData {im : ModifyImage} : placeData (modifyEntry p im s) m = placeData s m :=
  placeData_of_same (by simp) (by simp)

@[simp] theorem revokeEntry_placeData : placeData (revokeEntry p c f force s) m = placeData s m :=
  placeData_of_same (by simp) (by simp)

@[simp] theorem queryEntry_placeData : placeData (queryEntry p c s) m = placeData s m :=
  placeData_of_same (by simp) (by simp)

@[simp] theorem setSide_placeData {v : Byte} : placeData (setSide p c v s) m = placeData s m :=
  placeData_of_same (by simp) (by simp)

@[simp] theorem purge_placeData {v v' : Byte} : placeData (purge p v v' s) m = placeData s m :=
  placeData_of_same (by simp) (by simp)

@[simp] theorem setQuota_placeData : placeData (setQuota p n s) m = placeData s m :=
  placeData_of_same (by simp) (by simp)

@[simp] theorem settlePurge_placeData : placeData (settlePurge s) m = placeData s m :=
  placeData_of_same (by simp) (by simp)

@[simp] theorem purgeFirstVisit_placeData : placeData (purgeFirstVisit cl is todo n c s) m = placeData s m :=
  placeData_of_same (by simp) (by simp)

@[simp] theorem purgeSecondVisit_placeData : placeData (purgeSecondVisit cl is todo n c s) m = placeData s m :=
  placeData_of_same (by simp) (by simp)

@[simp] theorem removeAll_placeData : placeData (removeAll es s) m = placeData s m :=
  placeData_of_same (by simp) (by simp)

@[simp] theorem purgeEnd_placeData : placeData (purgeEnd n s) m = placeData s m :=
  placeData_of_same (by simp) (by simp)

@[simp] theorem forcedStart_placeData : placeData (forcedStart c f s) m = placeData s m :=
  placeData_of_same (by simp) (by simp)

@[simp] theorem forcedVisit_placeData {x : Cred} : placeData (forcedVisit x f todo n force c s) m = placeData s m :=
  placeData_of_same (by simp) (by simp)

@[simp] theorem forcedEnd_placeData : placeData (forcedEnd c f n force s) m = placeData s m :=
  placeData_of_same (by simp) (by simp)

@[simp] theorem settleSweep_placeData : placeData (settleSweep s) m = placeData s m :=
  placeData_of_same (by simp) (by simp)

@[simp] theorem sweepVisit_placeData : placeData (sweepVisit todo n c s) m = placeData s m :=
  placeData_of_same (by simp) (by simp)

@[simp] theorem minuteSweep_placeData : placeData (minuteSweep s) m = placeData s m :=
  placeData_of_same (by simp) (by simp)

@[simp] theorem sendResult_placeData {x : PostingResult} : placeData (sendResult x s) m = placeData s m :=
  placeData_of_same (by simp) (by simp)

@[simp] theorem post_placeData {x : Posting} : placeData (post x s) m = placeData s m :=
  placeData_of_same (by simp) (by simp)

variable {v sp : Cred} {ph : WaitPhase} {xs : List EscortRec}

@[simp] theorem dropWait_placeData : placeData (dropWait v s) m = placeData s m :=
  placeData_of_same (by simp) (by simp)

@[simp] theorem dropCredit_placeData : placeData (dropCredit c s) m = placeData s m :=
  placeData_of_same (by simp) (by simp)

@[simp] theorem expireCredit_placeData : placeData (expireCredit c l s) m = placeData s m :=
  placeData_of_same (by simp) (by simp)

@[simp] theorem sponsorCredit_placeData : placeData (sponsorCredit c l s) m = placeData s m :=
  placeData_of_same (by simp) (by simp)

@[simp] theorem settleOuter_placeData {ls : List Lane} : placeData (settleOuter ls s) m = placeData s m := by
  induction ls generalizing s with
  | nil => rfl
  | cons l rest ih => simp [settleOuter, ih]

@[simp] theorem releaseWaits_placeData : placeData (releaseWaits c xs s) m = placeData s m := by
  induction xs generalizing s with
  | nil => rfl
  | cons r rest ih =>
    cases r with
    | wait v x l st ph => cases ph <;> simp [releaseWaits, ih]
    | credit x l st => simp [releaseWaits, ih]

@[simp] theorem sponsorPassage_placeData {x : HandedPassage} : placeData (sponsorPassage x s) m = placeData s m := by
  unfold sponsorPassage
  dsimp only
  (repeat' split) <;> simp

@[simp] theorem removeCredit_placeData : placeData (removeCredit c s) m = placeData s m :=
  placeData_of_same (by simp) (by simp)

@[simp] theorem bankEvent_placeData {k : BankCode} {bs : List Byte} : placeData (bankEvent k bs s) m = placeData s m :=
  placeData_of_same (by simp) (by simp)

@[simp] theorem setUncertain_placeData {k : UncertainCause} : placeData (setUncertain k s) m = placeData s m :=
  placeData_of_same (by simp) (by simp)

@[simp] theorem handAction_placeData {a : ActiveAction} : placeData (handAction a s) m = placeData s m :=
  placeData_of_same (by simp) (by simp)

@[simp] theorem setOccupancy_placeData {u : OccupancyUnit} : placeData (setOccupancy u s) m = placeData s m :=
  placeData_of_same (by simp) (by simp)

@[simp] theorem changeCount_placeData {k : Class} : placeData (changeCount k n s) m = placeData s m :=
  placeData_of_same (by simp) (by simp)

@[simp] theorem countPassage_placeData {k : Class} : placeData (countPassage k d s) m = placeData s m :=
  placeData_of_same (by simp) (by simp)

@[simp] theorem applyCounts_placeData {k : HeadCounts} : placeData (applyCounts k s) m = placeData s m :=
  placeData_of_same (by simp) (by simp)

@[simp] theorem setGovernor_placeData {g : Byte} {k : GroupChange} {y : Option Nat} :
    placeData (setGovernor p g k y s) m = placeData s m :=
  placeData_of_same (by simp) (by simp)

variable {dl : DeskLookup} {mark : Bool}

@[simp] theorem verdictRecord_placeData {x : Verdict} : placeData (verdictRecord l d c x s) m = placeData s m :=
  placeData_of_same (by simp) (by simp)

@[simp] theorem deskRecord_placeData {x : Option Entry} {y : Option Tag} {z : Option DenyReason} :
    placeData (deskRecord p dl x y mark z s) m = placeData s m :=
  placeData_of_same (by simp) (by simp)

@[simp] theorem denyDesk_placeData {x : Option Entry} {z : DenyReason} : placeData (denyDesk p dl x z s) m = placeData s m :=
  placeData_of_same (by simp) (by simp)

@[simp] theorem endWaitByDesk_placeData {g : Tag} : placeData (endWaitByDesk p e g s) m = placeData s m :=
  placeData_of_same (by simp) (by simp)

@[simp] theorem dispatchRecord_placeData {k : DispatchCode} {g : Tag} {x : Option Cred} {y : Detail} :
    placeData (dispatchRecord k g x y s) m = placeData s m :=
  placeData_of_same (by simp) (by simp)

@[simp] theorem dropCall_placeData {g : Tag} : placeData (dropCall g s) m = placeData s m :=
  placeData_of_same (by simp) (by simp)

@[simp] theorem setDispatch_placeData {x y z : Option Byte} : placeData (setDispatch p x y z s) m = placeData s m :=
  placeData_of_same (by simp) (by simp)

@[simp] theorem dispatchStatus_placeData : placeData (dispatchStatus p s) m = placeData s m :=
  placeData_of_same (by simp) (by simp)

@[simp] theorem staleAnswer_placeData {g : Tag} {x : List Byte} : placeData (staleAnswer p g x s) m = placeData s m :=
  placeData_of_same (by simp) (by simp)

@[simp] theorem postCancel_placeData : placeData (postCancel w s) m = placeData s m :=
  placeData_of_same (by simp) (by simp)

variable {ls : List Lane}

@[simp] theorem safetyEvent_placeData {k : BankCode} {bs : List Byte} : placeData (safetyEvent k bs s) m = placeData s m :=
  placeData_of_same (by simp) (by simp)

@[simp] theorem egressCall_placeData : placeData (egressCall s) m = placeData s m :=
  placeData_of_same (by simp) (by simp)

@[simp] theorem compareInput_placeData : placeData (compareInput s) m = placeData s m :=
  placeData_of_same (by simp) (by simp)

@[simp] theorem becomeEgress_placeData : placeData (becomeEgress s) m = placeData s m :=
  placeData_of_same (by simp) (by simp)

@[simp] theorem sendAgain_placeData {x : LaneReport} : placeData (sendAgain l x s) m = placeData s m :=
  placeData_of_same (by simp) (by simp)

@[simp] theorem setLockdown_placeData : placeData (setLockdown f s) m = placeData s m :=
  placeData_of_same (by simp) (by simp)

@[simp] theorem lockdown_placeData {x : Byte} : placeData (lockdown p x s) m = placeData s m :=
  placeData_of_same (by simp) (by simp)

@[simp] theorem laneRecord_placeData {k : LaneCode} {x : Detail} : placeData (laneRecord l k x s) m = placeData s m :=
  placeData_of_same (by simp) (by simp)

@[simp] theorem windowRecord_placeData : placeData (windowRecord w o f s) m = placeData s m :=
  placeData_of_same (by simp) (by simp)

@[simp] theorem handPassage_placeData {x : PostingResult} : placeData (handPassage w x s) m = placeData s m :=
  placeData_of_same (by simp) (by simp)

variable {g : SlotRec → SlotRec} {k : SentKind} {xs : List Slot} {coll : Collisions} {why : RefusalReason} {pr : Profile}

@[simp] theorem noAnswer_placeData : placeData (noAnswer l x s) m = placeData s m :=
  placeData_of_same (by simp) (by simp)

@[simp] theorem takeSense_placeData {y : List SenseEvent} {z : LeafPosition} {u : Zones} :
    placeData (takeSense l y z u s) m = placeData s m :=
  placeData_of_same (by simp) (by simp)

@[simp] theorem emit_placeData {bs : List LineMark} : placeData (emit l bs s) m = placeData s m :=
  placeData_of_same (by simp) (by simp)

@[simp] theorem clockRecord_placeData {k : ClockCode} {y : Detail} : placeData (clockRecord k y s) m = placeData s m :=
  placeData_of_same (by simp) (by simp)

@[simp] theorem handAdvance_placeData {u : ClockUnit} : placeData (handAdvance u s) m = placeData s m :=
  placeData_of_same (by simp) (by simp)

@[simp] theorem takeTime_placeData {x : Secs} : placeData (takeTime x s) m = placeData s m :=
  placeData_of_same (by simp) (by simp)

@[simp] theorem setClock_placeData {x : Secs} : placeData (setClock p x s) m = placeData s m :=
  placeData_of_same (by simp) (by simp)

@[simp] theorem readClock_placeData : placeData (readClock p s) m = placeData s m :=
  placeData_of_same (by simp) (by simp)

@[simp] theorem takeBeacon_placeData {x : Secs} : placeData (takeBeacon x s) m = placeData s m :=
  placeData_of_same (by simp) (by simp)

@[simp] theorem setJournal_placeData {u : JournalUnit} : placeData (setJournal u s) m = placeData s m :=
  placeData_of_same (by simp) (by simp)

@[simp] theorem appendRecord_placeData : placeData (appendRecord r s) m = placeData s m :=
  placeData_of_same (by simp) (by simp)

@[simp] theorem readJournal_placeData {x : Byte} : placeData (readJournal p x s) m = placeData s m :=
  placeData_of_same (by simp) (by simp)

@[simp] theorem subscribe_placeData {x : BitVec 16} : placeData (subscribe p x s) m = placeData s m :=
  placeData_of_same (by simp) (by simp)

@[simp] theorem journalStatus_placeData : placeData (journalStatus p s) m = placeData s m :=
  placeData_of_same (by simp) (by simp)

@[simp] theorem readNotices_placeData : placeData (readNotices p s) m = placeData s m :=
  placeData_of_same (by simp) (by simp)

@[simp] theorem setNoticeMask_placeData {x y : BitVec 16} : placeData (setNoticeMask p x y s) m = placeData s m :=
  placeData_of_same (by simp) (by simp)

variable {x : Txn} {bs : List Byte} {y : Byte}

@[simp] theorem busy_placeData : placeData (busy x s) m = placeData s m :=
  placeData_of_same (by simp) (by simp)

@[simp] theorem acked_placeData {z : Ack} : placeData (acked z s) m = placeData s m :=
  placeData_of_same (by simp) (by simp)

@[simp] theorem beginTxn_placeData : placeData (beginTxn s) m = placeData s m :=
  placeData_of_same (by simp) (by simp)

@[simp] theorem fillSlot_placeData : placeData (fillSlot p bs s) m = placeData s m :=
  placeData_of_same (by simp) (by simp)

@[simp] theorem emptySlot_placeData : placeData (emptySlot p s) m = placeData s m :=
  placeData_of_same (by simp) (by simp)

@[simp] theorem requestTaken_placeData : placeData (requestTaken p s) m = placeData s m :=
  placeData_of_same (by simp) (by simp)

@[simp] theorem endBroadcast_placeData : placeData (endBroadcast bs f s) m = placeData s m :=
  placeData_of_same (by simp) (by simp)

@[simp] theorem endTxn_placeData : placeData (endTxn x s) m = placeData s m :=
  placeData_of_same (by simp) (by simp)

@[simp] theorem addressWrite_placeData : placeData (addressWrite p x s) m = placeData s m :=
  placeData_of_same (by simp) (by simp)

@[simp] theorem addressRead_placeData : placeData (addressRead p x s) m = placeData s m :=
  placeData_of_same (by simp) (by simp)

@[simp] theorem addressed_placeData : placeData (addressed y x s) m = placeData s m :=
  placeData_of_same (by simp) (by simp)

@[simp] theorem dataByte_placeData : placeData (dataByte y x s) m = placeData s m :=
  placeData_of_same (by simp) (by simp)

@[simp] theorem fullyRead_placeData : placeData (fullyRead p x s) m = placeData s m :=
  placeData_of_same (by simp) (by simp)

@[simp] theorem sendByte_placeData {z : ReadSource} : placeData (sendByte p z n x s) m = placeData s m :=
  placeData_of_same (by simp) (by simp)

@[simp] theorem releaseHold_placeData {z : ReadSource} : placeData (releaseHold p z s) m = placeData s m :=
  placeData_of_same (by simp) (by simp)

@[simp] theorem abandon_placeData : placeData (abandon x s) m = placeData s m :=
  placeData_of_same (by simp) (by simp)

@[simp] theorem setLine_placeData {y : Option Byte} : placeData (setLine p y s) m = placeData s m :=
  placeData_of_same (by simp) (by simp)

/-! ## The commands' own operations -/

@[simp] theorem crossIn_placeData : placeData (crossIn l d s) m = placeData s m := by
  unfold crossIn
  dsimp only
  split <;> simp

@[simp] theorem pairSeen_placeData : placeData (pairSeen l d s) m = placeData s m := by
  unfold pairSeen
  split <;> simp

@[simp] theorem crossLeaf_placeData : placeData (crossLeaf l d s) m = placeData s m := by
  unfold crossLeaf
  split <;> simp

@[simp] theorem crossOut_placeData {z : SenseSide} : placeData (crossOut l z s) m = placeData s m := by
  unfold crossOut
  split <;> simp

@[simp] theorem retreat_placeData : placeData (retreat l d s) m = placeData s m := by
  unfold retreat
  (repeat' split) <;> simp

@[simp] theorem obstructOn_placeData : placeData (obstructOn l s) m = placeData s m := by
  unfold obstructOn
  split
  · rfl
  · exact onLane_placeData rfl rfl

@[simp] theorem retestPaced_placeData {ws : List Window} : placeData (retestPaced l ws s) m = placeData s m := by
  induction ws generalizing s with
  | nil => rfl
  | cons w r ih => rw [retestPaced, ih]; split <;> simp

@[simp] theorem leaveAll_placeData {ws : List Window} : placeData (leaveAll l ws s) m = placeData s m := by
  induction ws generalizing s with
  | nil => rfl
  | cons w r ih => rw [leaveAll, ih]; simp

@[simp] theorem settleCall_placeData {k : CallState} {z : Option Nat} :
    placeData (settleCall l w k z s) m = placeData s m := by simp [settleCall]

@[simp] theorem assignCar_placeData {g : Tag} {b : Byte} : placeData (assignCar p g b s) m = placeData s m := by
  unfold assignCar
  split <;> simp

@[simp] theorem declineCall_placeData {g : Tag} : placeData (declineCall p g s) m = placeData s m := by
  unfold declineCall
  split <;> simp

@[simp] theorem timeoutCall_placeData : placeData (timeoutCall l w s) m = placeData s m := by
  unfold timeoutCall
  split <;> simp

@[simp] theorem markTaken_placeData {cs : List CallRec} : placeData (markTaken cs s) m = placeData s m := by
  induction cs generalizing s with
  | nil => rfl
  | cons r rest ih => cases r <;> simp [markTaken, ih]

@[simp] theorem takeCalls_placeData : placeData (takeCalls p s) m = placeData s m := by simp [takeCalls]

@[simp] theorem recordEnds_placeData {b : Bool} {xs : List EscortRec} : placeData (recordEnds b xs s) m = placeData s m := by
  induction xs generalizing s with
  | nil => rfl
  | cons r rest ih => cases r <;> cases b <;> simp [recordEnds, ih]

@[simp] theorem clearList_placeData {b : Bool} : placeData (clearList b s) m = placeData s m := by simp [clearList]

@[simp] theorem endEvents_placeData {ls : List Lane} : placeData (endEvents ls s) m = placeData s m := by
  induction ls generalizing s with
  | nil => rfl
  | cons l r ih => simp [endEvents, ih]

@[simp] theorem tellRestore_placeData {ls : List Lane} : placeData (tellRestore ls s) m = placeData s m := by
  induction ls generalizing s with
  | nil => rfl
  | cons l r ih =>
    have h : ∀ t : State, placeData (t.onLane l (fun u => { u with restoring := true })) m = placeData t m :=
      fun _ => onLane_placeData rfl rfl
    rw [tellRestore, ih]; split <;> simp [h]

@[simp] theorem testRestoreEnd_placeData : placeData (testRestoreEnd s) m = placeData s m := by
  unfold testRestoreEnd
  split <;> rfl

@[simp] theorem beginRestore_placeData : placeData (beginRestore s) m = placeData s m := by
  unfold beginRestore
  dsimp only
  split <;> simp

@[simp] theorem egressRelease_placeData : placeData (egressRelease s) m = placeData s m := by
  unfold egressRelease
  (repeat' split) <;> first | rfl | simp

@[simp] theorem takeWaitingRelease_placeData : placeData (takeWaitingRelease s) m = placeData s m := by
  unfold takeWaitingRelease
  split
  · exact beginRestore_placeData
  · rfl

@[simp] theorem testEgress_placeData : placeData (testEgress s) m = placeData s m := by
  unfold testEgress
  split <;> simp

@[simp] theorem resumeSafety_placeData : placeData (resumeSafety s) m = placeData s m := by
  unfold resumeSafety
  split <;> simp

@[simp] theorem overtakeLane_placeData : placeData (overtakeLane l s) m = placeData s m := by
  unfold overtakeLane
  split
  · simp
  · split
    · exact onLane_placeData rfl rfl
    · rfl

@[simp] theorem restore_placeData : placeData (restore p s) m = placeData s m := by
  unfold restore
  split <;> simp

@[simp] theorem maskLane_placeData : placeData (maskLane l s) m = placeData s m := by
  simp [maskLane]

@[simp] theorem unmaskLane_placeData : placeData (unmaskLane l s) m = placeData s m := by
  simp [unmaskLane]

@[simp] theorem applyMask_placeData {x y : LaneSet} {ls : List Lane} :
    placeData (applyMask x y ls s) m = placeData s m := by
  induction ls generalizing s with
  | nil => rfl
  | cons l r ih => rw [applyMask, ih]; (repeat' split) <;> simp

@[simp] theorem isolateLane_placeData : placeData (isolateLane p l s) m = placeData s m := by
  unfold isolateLane
  split <;> simp

@[simp] theorem resumeLane_placeData : placeData (resumeLane p l s) m = placeData s m := by
  unfold resumeLane
  split <;> simp

@[simp] theorem restartLane_placeData : placeData (restartLane p l s) m = placeData s m := by
  have h : ∀ t : State, placeData (t.onLane l (fun u =>
      { u with zones := ⟨false, false, false⟩, obstruction := false, obstructDue := none })) m = placeData t m :=
    fun _ => onLane_placeData rfl rfl
  unfold restartLane
  split <;> simp [h]

@[simp] theorem readCounters_placeData : placeData (readCounters p l s) m = placeData s m :=
  (onLane_placeData rfl rfl).trans answer_placeData

theorem setLane_law {k : LaneChange} (h : PlacesLaw s) : PlacesLaw (setLane p l k s) := by
  unfold setLane
  split
  · exact answer_law h
  · exact applySettings_law (answer_law h)

theorem alarmReset_law (h : PlacesLaw s) : PlacesLaw (alarmReset p l s) := by
  unfold alarmReset
  dsimp only
  split
  · exact answer_law h
  · split
    · exact answer_law h
    · refine endEvent_law ?_
      split
      · exact backToReady_law (answer_law h)
      · exact PlacesLaw.of_data (answer_law (p := p) (st := .ok) (body := []) h) (fun _ => onLane_placeData rfl rfl)

/-- A sense step whose effect leaves the data keeps the law. -/
theorem senseStep_law {α : Type} {rd : SenseItem → Option α} {g : α → State → State}
    (hg : ∀ a t m, placeData (g a t) m = placeData t m) (h : PlacesLaw s) : PlacesLaw (senseStep l rd g s) := by
  unfold senseStep
  (repeat' split) <;> first | exact h | exact h.of_data (fun _ => by simp_all)

theorem attributed_placeData {g : State → State} (hg : ∀ t m, placeData (g t) m = placeData t m) :
    ∀ t m, placeData (attributed l g t) m = placeData t m := by
  intro t m
  unfold attributed
  split <;> simp [hg]

/-- The judgement of an awaited reply keeps the law when its effect does. -/
theorem afterAwait_law {c : Collisions} {a : Await} {g : State → State} (hg : ∀ t, PlacesLaw t → PlacesLaw (g t))
    (h : PlacesLaw s) : PlacesLaw (afterAwait l c a g s) := by
  have h' : PlacesLaw (s.onLine l (fun u => { u with await := none })) := h
  unfold afterAwait
  dsimp only
  exact (hg _ h').of_data (fun _ => runSlots_placeData)

theorem Await.unlessVoid_law {a : Await} {g : State → State} (hg : PlacesLaw (g s)) (h : PlacesLaw s) :
    PlacesLaw (a.unlessVoid g s) := by
  unfold Await.unlessVoid
  split
  · exact h
  · exact hg

theorem goodReply_law {y : RawReply} {c : Collisions} {k : GoodReply → Bool} (h : PlacesLaw s) :
    PlacesLaw (goodReply l y c k s) := by
  unfold goodReply
  (repeat' split) <;> first | exact h | exact afterAwait_law (fun _ ht => Await.unlessVoid_law (takeGood_law ht) ht) h

end Sys2Proof.Machine
end

