-- ==== Sys2Proof/Laws/Table.lean ====
section
/-!
SUPPORT. The Permit Table's operations keep it lawful (R1, R4): the list lemmas of insertion, removal and change of one
entry, then one lemma for each operation.
-/
namespace Sys2Proof.Machine

/-! ## The sorted list -/

/-- The canonical form says that credentials rise strictly, pairwise. -/
theorem sortedEntries_iff : ∀ es : List Entry,
    sortedEntries es = true ↔ es.Pairwise (fun a b => a.cred.toNat < b.cred.toNat)
  | [] => by simp [sortedEntries]
  | [_] => by simp [sortedEntries]
  | a :: b :: r => by
    simp only [sortedEntries, Bool.and_eq_true, decide_eq_true_eq, sortedEntries_iff (b :: r), List.pairwise_cons]
    constructor
    · rintro ⟨h, hb, hr⟩
      refine ⟨fun x hx => ?_, hb, hr⟩
      rcases List.mem_cons.1 hx with rfl | hx
      · exact h
      · exact Nat.lt_trans h (hb x hx)
    · rintro ⟨ha, hb, hr⟩
      exact ⟨ha b (List.mem_cons_self ..), hb, hr⟩

/-- Credentials of entries with the same number are the same. -/
theorem findEntry_some {c : Cred} {es : List Entry} {e : Entry} (h : findEntry c es = some e) : e ∈ es ∧ e.cred = c :=
  ⟨List.mem_of_find?_eq_some h, by simpa using List.find?_some h⟩

/-- An entry that is not found has its credential nowhere. -/
theorem findEntry_none {c : Cred} {es : List Entry} (h : findEntry c es = none) : ∀ e ∈ es, e.cred ≠ c := by
  intro e he hc
  have := List.find?_eq_none.1 h e he
  simp [hc] at this

theorem mem_insertSorted {e x : Entry} : ∀ {es : List Entry}, x ∈ insertSorted e es ↔ x = e ∨ x ∈ es
  | [] => by simp [insertSorted]
  | y :: r => by
    unfold insertSorted
    split
    · simp
    · simp only [List.mem_cons, mem_insertSorted]
      constructor
      · rintro (h | h | h) <;> simp [h]
      · rintro (h | h | h) <;> simp [h]

theorem insertSorted_perm (e : Entry) : ∀ es : List Entry, (insertSorted e es).Perm (e :: es)
  | [] => .refl _
  | x :: r => by
    unfold insertSorted
    split
    · exact .refl _
    · exact ((insertSorted_perm e r).cons x).trans (.swap e x r)

theorem insertSorted_pairwise {e : Entry} : ∀ {es : List Entry},
    es.Pairwise (fun a b => a.cred.toNat < b.cred.toNat) → (∀ x ∈ es, x.cred ≠ e.cred) →
    (insertSorted e es).Pairwise (fun a b => a.cred.toNat < b.cred.toNat)
  | [], _, _ => by simp [insertSorted]
  | x :: r, h, hn => by
    unfold insertSorted
    rw [List.pairwise_cons] at h
    split
    · rename_i hlt
      rw [List.pairwise_cons, List.pairwise_cons]
      refine ⟨fun y hy => ?_, h⟩
      rcases List.mem_cons.1 hy with rfl | hy
      · exact hlt
      · exact Nat.lt_trans hlt (h.1 y hy)
    · rename_i hge
      rw [List.pairwise_cons]
      refine ⟨fun y hy => ?_, insertSorted_pairwise h.2 (fun y hy => hn y (List.mem_cons_of_mem _ hy))⟩
      rcases mem_insertSorted.1 hy with rfl | hy
      · have hne : x.cred.toNat ≠ y.cred.toNat := fun e' =>
          hn x (List.mem_cons_self ..) (BitVec.eq_of_toNat_eq e')
        omega
      · exact h.1 y hy

/-- Entries of one credential are one entry. -/
theorem eq_of_cred_eq {es : List Entry} (h : es.Pairwise (fun a b => a.cred.toNat < b.cred.toNat)) {a b : Entry}
    (ha : a ∈ es) (hb : b ∈ es) (hc : a.cred = b.cred) : a = b := by
  induction es with
  | nil => simp at ha
  | cons x r ih =>
    rw [List.pairwise_cons] at h
    rcases List.mem_cons.1 ha with h1 | h1 <;> rcases List.mem_cons.1 hb with h2 | h2
    · rw [h1, h2]
    · have := h.1 b h2; rw [h1] at hc; rw [hc] at this; omega
    · have := h.1 a h1; rw [h2] at hc; rw [hc] at this; omega
    · exact ih h.2 h1 h2

/-- What a change of one entry keeps when it keeps the credential and the issuer. -/
theorem mapEntry_keeps {c : Cred} {f : Entry → Entry} {es : List Entry}
    (hf : ∀ e ∈ es, e.cred = c → (f e).cred = e.cred ∧ (f e).issuer = e.issuer) :
    (mapEntry c f es).map (fun e => (e.cred, e.issuer)) = es.map (fun e => (e.cred, e.issuer)) := by
  unfold mapEntry
  rw [List.map_map]
  apply List.map_congr_left
  intro e he
  simp only [Function.comp]
  split
  · rename_i h
    have := hf e he (by simpa using h)
    rw [this.1, this.2]
  · rfl

/-- A table that has the same credentials and issuers in the same order is lawful with it. -/
theorem TableUnit.lawful_of_shape {t u : TableUnit} (h : TableUnit.Lawful t)
    (hs : u.entries.map (fun e => (e.cred, e.issuer)) = t.entries.map (fun e => (e.cred, e.issuer)))
    (hc : u.receptionCount = t.receptionCount) (hq : u.quota = t.quota) : TableUnit.Lawful u := by
  obtain ⟨h1, h2, h3, h4, h5⟩ := h
  have hl : u.entries.length = t.entries.length := by simpa using congrArg List.length hs
  refine ⟨?_, by omega, ?_, by omega, by omega⟩
  · unfold TableUnit.wf at h1 ⊢
    rw [sortedEntries_iff] at h1 ⊢
    have h1' : (t.entries.map (fun e => (e.cred, e.issuer))).Pairwise (fun a b => a.1.toNat < b.1.toNat) :=
      List.pairwise_map.2 h1
    rw [← hs] at h1'
    simpa only [List.pairwise_map] using h1'
  · have cnt : ∀ es : List Entry, (es.filter (fun e => e.issuer == .reception)).length
        = ((es.map (fun e => (e.cred, e.issuer))).filter (fun x => x.2 == .reception)).length := by
      intro es; rw [List.filter_map, List.length_map]; rfl
    rw [hc, h3, cnt, cnt, hs]

/-! ## The operations -/

/-- A change of one entry that keeps its credential and its issuer keeps the table lawful. -/
theorem onEntry_lawful {c : Cred} {f : Entry → Entry} {s : State} (h : TableLaw s)
    (hf : ∀ e ∈ s.table.entries, e.cred = c → (f e).cred = e.cred ∧ (f e).issuer = e.issuer) :
    TableLaw (onEntry c f s) :=
  TableUnit.lawful_of_shape h (mapEntry_keeps hf) rfl rfl

theorem addRef_lawful {c : Cred} {s : State} (h : TableLaw s) : TableLaw (addRef c s) :=
  onEntry_lawful h (fun _ _ _ => ⟨rfl, rfl⟩)

theorem dropRef_lawful {c : Cred} {s : State} (h : TableLaw s) : TableLaw (dropRef c s) :=
  onEntry_lawful h (fun _ _ _ => ⟨rfl, rfl⟩)

/-- A change of the walker alone keeps the table lawful. -/
theorem setWalk_lawful {w : Option Walk} {s : State} (h : TableLaw s) : TableLaw (setWalk w s) :=
  TableUnit.lawful_of_shape h rfl rfl rfl

theorem askWalk_lawful {q : WalkRequest} {s : State} (h : TableLaw s) : TableLaw (askWalk q s) := by
  unfold askWalk
  split
  · exact setWalk_lawful h
  · exact TableUnit.lawful_of_shape h rfl rfl rfl

theorem endWalk_lawful {s : State} (h : TableLaw s) : TableLaw (endWalk s) := by
  unfold endWalk
  split
  · exact setWalk_lawful h
  · exact TableUnit.lawful_of_shape h rfl rfl rfl

/-- A fresh entry within the quota keeps the table lawful (R4, R11). -/
theorem addEntry_lawful {e : Entry} {s : State} (h : TableLaw s) (hn : ∀ x ∈ s.table.entries, x.cred ≠ e.cred)
    (hl : s.table.entries.length < Config.tableCapacity)
    (hq : e.issuer = .reception → s.table.receptionCount < s.table.quota) : TableLaw (addEntry e s) := by
  have key : TableLaw (s.onTable (fun t =>
      { t with
        entries := insertSorted e t.entries
        receptionCount := if e.issuer = .reception then t.receptionCount + 1 else t.receptionCount })) := by
    obtain ⟨h1, h2, h3, h4, h5⟩ := h
    have hp := insertSorted_perm e s.table.entries
    refine ⟨?_, ?_, ?_, ?_, h5⟩
    · unfold TableUnit.wf at h1 ⊢
      rw [sortedEntries_iff] at h1 ⊢
      exact insertSorted_pairwise h1 hn
    · have := hp.length_eq
      simp only [State.onTable, this, List.length_cons]
      omega
    · have := (hp.filter (fun e => e.issuer == .reception)).length_eq
      simp only [State.onTable, this, List.filter_cons]
      by_cases hi : e.issuer = .reception <;> simp [hi, h3]
    · simp only [State.onTable]
      split
      · rename_i hi
        have := hq hi
        omega
      · exact h4
  unfold addEntry
  dsimp only
  split
  · exact addRef_lawful key
  · exact key

/-- The table's part of a removal (R9): the entries that remain, and the count. -/
theorem dropEntry_lawful {e : Entry} {t u : TableUnit} (h : TableUnit.Lawful t)
    (he : ∃ x ∈ t.entries, x.cred = e.cred ∧ x.issuer = e.issuer)
    (hs : u.entries = dropEntry e.cred t.entries)
    (hc : u.receptionCount = if e.issuer = .reception then t.receptionCount - 1 else t.receptionCount)
    (hq : u.quota = t.quota) : TableUnit.Lawful u := by
  obtain ⟨h1, h2, h3, h4, h5⟩ := h
  obtain ⟨x, hx, hxc, hxi⟩ := he
  unfold TableUnit.wf at h1
  rw [sortedEntries_iff] at h1
  have drop : ∀ es : List Entry, es.Pairwise (fun a b => a.cred.toNat < b.cred.toNat) → x ∈ es →
      (es.filter (fun e => e.issuer == .reception)).length
        = ((dropEntry e.cred es).filter (fun e => e.issuer == .reception)).length
          + (if e.issuer = .reception then 1 else 0) := by
    intro es hp hm
    induction es with
    | nil => simp at hm
    | cons y r ih =>
      rw [List.pairwise_cons] at hp
      unfold dropEntry at ih ⊢
      rcases List.mem_cons.1 hm with rfl | hm
      · have hr : r.filter (fun z => z.cred != e.cred) = r := by
          rw [List.filter_eq_self]
          intro z hz
          have := hp.1 z hz
          rw [bne_iff_ne, ne_eq]
          intro hc; rw [hc, hxc] at this; omega
        by_cases hi : e.issuer = .reception <;> simp [hxc, hr, hxi, hi]
      · have hne : y.cred ≠ e.cred := by
          intro hc
          have := hp.1 x hm
          rw [hc, hxc] at this; omega
        have := ih hp.2 hm
        by_cases hi : y.issuer = .reception <;> simp_all <;> omega
  have hd := drop _ h1 hx
  refine ⟨?_, ?_, ?_, ?_, by omega⟩
  · unfold TableUnit.wf
    rw [sortedEntries_iff, hs]
    exact h1.filter _
  · rw [hs]
    exact Nat.le_trans (List.length_filter_le ..) h2
  · rw [hs, hc]; split at hd <;> simp_all
  · rw [hc, hq]; split <;> omega

/-- A removal keeps the table lawful (R9). -/
theorem removeEntry_lawful {e : Entry} {s : State} (h : TableLaw s)
    (he : ∃ x ∈ s.table.entries, x.cred = e.cred ∧ x.issuer = e.issuer) : TableLaw (removeEntry e s) := by
  have key : ∀ u : State, TableLaw u → (∃ x ∈ u.table.entries, x.cred = e.cred ∧ x.issuer = e.issuer) →
      TableLaw (u.onTable (fun t =>
        { t with
          entries := dropEntry e.cred t.entries
          receptionCount := if e.issuer = .reception then t.receptionCount - 1 else t.receptionCount
          departed := match e.claim with
            | some (.window g) => t.departed ++ [⟨g, e.cred⟩]
            | _ => t.departed
          walk := t.walk.map (Walk.forget e.cred) })) :=
    fun u hu hx => dropEntry_lawful hu hx rfl rfl rfl
  have same : (removeEntry e s).table = (State.onTable (match e.sponsor with | some p => dropRef p s | none => s) (fun t =>
        { t with
          entries := dropEntry e.cred t.entries
          receptionCount := if e.issuer = .reception then t.receptionCount - 1 else t.receptionCount
          departed := match e.claim with
            | some (.window g) => t.departed ++ [⟨g, e.cred⟩]
            | _ => t.departed
          walk := t.walk.map (Walk.forget e.cred) })).table := by
    unfold removeEntry
    dsimp only
    by_cases hc : e.claim = some .wait <;> simp only [if_pos, if_neg, hc, not_false_eq_true] <;> rfl
  unfold TableLaw
  rw [same]
  apply key
  · split
    · exact dropRef_lawful h
    · exact h
  · obtain ⟨x, hx, h1, h2⟩ := he
    split
    · rename_i p _
      refine ⟨if x.cred == p then { x with refs := x.refs - 1 } else x, List.mem_map.2 ⟨x, hx, rfl⟩, ?_, ?_⟩ <;>
        split <;> assumption
    · exact ⟨x, hx, h1, h2⟩

/-- A step that leaves the table as it was leaves it lawful. -/
theorem TableLaw.of_same {s t : State} (h : TableLaw s) (k : Block.table.same s t) : TableLaw t := by
  unfold TableLaw; rw [show t.table = s.table from k]; exact h

/-- An entry that the table answers with stands in it. -/
theorem State.entry_some {s : State} {c : Cred} {e : Entry} (h : s.entry c = some e) :
    e ∈ s.table.entries ∧ e.cred = c := findEntry_some h

theorem standingEntry_some {s : State} {c : Cred} {e : Entry} (h : standingEntry s c = some e) :
    s.entry c = some e ∧ e.inRemoval = false := by
  unfold standingEntry at h
  split at h
  · split at h
    · simp at h
    · rename_i x hx _
      injection h with h; subst h
      exact ⟨hx, by simp_all⟩
  · simp at h

theorem handleReferring_lawful {e : Entry} {c : Cred} {s : State} (h : TableLaw s) :
    TableLaw (handleReferring e c s) := by
  have k : TableLaw (dropRef c (onEntry e.cred (fun x =>
      { x with sponsor := none, suspended := true, claim := if x.claim = some .wait then none else x.claim }) s)) :=
    dropRef_lawful (onEntry_lawful h (fun _ _ _ => ⟨rfl, rfl⟩))
  unfold handleReferring
  dsimp only
  split
  · exact k.of_same (by simp)
  · exact k

theorem settlePurge_lawful {s : State} (h : TableLaw s) : TableLaw (settlePurge s) := by
  unfold settlePurge
  split <;> first | exact setWalk_lawful h | exact h

theorem purgeFirstVisit_lawful {cl : ClassSet} {is : IssuerSet} {todo : List Cred} {n : Nat} {c : Cred} {s : State}
    (h : TableLaw s) : TableLaw (purgeFirstVisit cl is todo n c s) := by
  unfold purgeFirstVisit
  dsimp only
  split
  · rename_i e he
    split
    · split
      · exact setWalk_lawful (removeEntry_lawful h ⟨e, (State.entry_some he).1, rfl, rfl⟩)
      · exact setWalk_lawful (onEntry_lawful h (fun _ _ _ => ⟨rfl, rfl⟩))
    · exact setWalk_lawful h
  · exact setWalk_lawful h

theorem purgeSecondVisit_lawful {cl : ClassSet} {is : IssuerSet} {todo : List Cred} {n : Nat} {c : Cred} {s : State}
    (h : TableLaw s) : TableLaw (purgeSecondVisit cl is todo n c s) := by
  have k := setWalk_lawful (w := some (.purge cl is .second (todo.filter (· != c)) n)) h
  unfold purgeSecondVisit
  dsimp only
  (repeat' split) <;> first | exact handleReferring_lawful k | exact k

/-- A removal leaves every other credential's entry its credential and its issuer. -/
theorem removeEntry_others {e x : Entry} {s : State} (hx : x ∈ s.table.entries) (hc : x.cred ≠ e.cred) :
    ∃ y ∈ (removeEntry e s).table.entries, y.cred = x.cred ∧ y.issuer = x.issuer := by
  have same : (removeEntry e s).table.entries
      = dropEntry e.cred (State.table (match e.sponsor with | some p => dropRef p s | none => s)).entries := by
    unfold removeEntry
    dsimp only
    by_cases hw : e.claim = some .wait <;> simp only [if_pos, if_neg, hw, not_false_eq_true] <;> rfl
  rw [same]
  split
  · rename_i p _
    refine ⟨if x.cred == p then { x with refs := x.refs - 1 } else x, ?_, ?_, ?_⟩
    · refine List.mem_filter.2 ⟨List.mem_map.2 ⟨x, hx, rfl⟩, ?_⟩
      split <;> simpa using hc
    · split <;> rfl
    · split <;> rfl
  · exact ⟨x, List.mem_filter.2 ⟨hx, by simpa using hc⟩, rfl, rfl⟩

/-- Entries of different credentials, all in the table, are removed in turn. -/
theorem removeAll_lawful {es : List Entry} {s : State} (h : TableLaw s)
    (hd : es.Pairwise (fun a b => a.cred ≠ b.cred))
    (hm : ∀ e ∈ es, ∃ x ∈ s.table.entries, x.cred = e.cred ∧ x.issuer = e.issuer) : TableLaw (removeAll es s) := by
  induction es generalizing s with
  | nil => exact h
  | cons e r ih =>
    rw [List.pairwise_cons] at hd
    refine ih (removeEntry_lawful h (hm e (List.mem_cons_self ..))) hd.2 (fun y hy => ?_)
    obtain ⟨x, hx, hxc, hxi⟩ := hm y (List.mem_cons_of_mem _ hy)
    obtain ⟨z, hz, hzc, hzi⟩ := removeEntry_others hx (e := e) (by rw [hxc]; exact fun k => hd.1 y hy k.symm)
    exact ⟨z, hz, hzc.trans hxc, hzi.trans hxi⟩

theorem purgeEnd_lawful {n : Nat} {s : State} (h : TableLaw s) : TableLaw (purgeEnd n s) := by
  have hp : s.table.entries.Pairwise (fun a b => a.cred ≠ b.cred) := by
    have h1 := h.1
    unfold TableUnit.wf at h1
    rw [sortedEntries_iff] at h1
    exact h1.imp (fun hlt hc => by rw [hc] at hlt; omega)
  have k := removeAll_lawful h (hp.filter (·.inRemoval)) (fun e he => ⟨e, (List.mem_filter.1 he).1, rfl, rfl⟩)
  exact endWalk_lawful (k.of_same (by simp))

/-- A revoke of an entry of the table keeps it lawful (R14). -/
theorem revokeNow_lawful {e : Entry} {w : Bool} {s : State} (h : TableLaw s) (he : e ∈ s.table.entries) :
    TableLaw (revokeNow e w s).1 := by
  have k := removeEntry_lawful h ⟨e, he, rfl, rfl⟩
  unfold revokeNow
  cases w
  · exact k.of_same (by simp)
  · exact k.of_same (by simp)

theorem forcedStart_lawful {c : Cred} {w : Bool} {s : State} (h : TableLaw s) : TableLaw (forcedStart c w s) := by
  unfold forcedStart
  split
  · exact endWalk_lawful (h.of_same (by simp))
  · rename_i e he
    split
    · exact endWalk_lawful ((revokeNow_lawful (w := w) h (State.entry_some (standingEntry_some he).1).1).of_same (by simp))
    · have k : TableLaw (onEntry c (fun x => { x with inRemoval := true }) s) := onEntry_lawful h (fun _ _ _ => ⟨rfl, rfl⟩)
      dsimp only
      split
      · exact setWalk_lawful (k.of_same (by simp))
      · exact setWalk_lawful (k.of_same (by simp))

theorem forcedVisit_lawful {r : Cred} {w : Bool} {todo : List Cred} {n : Nat} {sent : Bool} {c : Cred} {s : State}
    (h : TableLaw s) : TableLaw (forcedVisit r w todo n sent c s) := by
  unfold forcedVisit
  dsimp only
  (repeat' split) <;> first | exact setWalk_lawful (handleReferring_lawful h) | exact setWalk_lawful h

theorem forcedEnd_lawful {r : Cred} {w : Bool} {n : Nat} {sent : Bool} {s : State} (h : TableLaw s) :
    TableLaw (forcedEnd r w n sent s) := by
  unfold forcedEnd
  dsimp only
  split
  · rename_i e he
    exact endWalk_lawful ((removeEntry_lawful h ⟨e, (State.entry_some he).1, rfl, rfl⟩).of_same (by simp))
  · exact endWalk_lawful (h.of_same (by simp))

theorem settleSweep_lawful {s : State} (h : TableLaw s) : TableLaw (settleSweep s) := by
  unfold settleSweep
  split
  · split
    · exact endWalk_lawful h
    · exact endWalk_lawful (h.of_same (by simp))
  · exact h

theorem sweepVisit_lawful {todo : List Cred} {n : Nat} {c : Cred} {s : State} (h : TableLaw s) :
    TableLaw (sweepVisit todo n c s) := by
  unfold sweepVisit
  dsimp only
  split
  · rename_i e he
    split
    · exact setWalk_lawful (removeEntry_lawful h ⟨e, (State.entry_some he).1, rfl, rfl⟩)
    · exact setWalk_lawful h
  · exact setWalk_lawful h

theorem minuteSweep_lawful {s : State} (h : TableLaw s) : TableLaw (minuteSweep s) := by
  unfold minuteSweep
  split
  · exact settleSweep_lawful (setWalk_lawful h)
  · exact h.of_same (by simp)

/-- Only a RECEPTION request makes an entry of issuer RECEPTION (R3). -/
theorem imageEntry_reception {p : Port} {im : InsertImage} {e : Entry} (h : imageEntry p im = some e)
    (hi : e.issuer = .reception) : p = .reception := by
  unfold imageEntry at h
  split at h
  · dsimp only at h
    by_cases hp : p = .reception
    · exact hp
    · simp only [hp, if_false] at h
      split at h
      · injection h with h; subst h; cases hi
      · cases h
  · cases h

/-- What the checks of an insert promise (R11). -/
theorem insertCheck_ok {s : State} {p : Port} {im : InsertImage} {e : Entry} (h : insertCheck s p im = .ok e) :
    (∀ x ∈ s.table.entries, x.cred ≠ e.cred) ∧ s.table.entries.length < Config.tableCapacity
      ∧ (e.issuer = .reception → s.table.receptionCount < s.table.quota) := by
  unfold insertCheck at h
  split at h
  · simp at h
  · split at h
    · simp at h
    · rename_i e' he'
      split at h
      · simp at h
      · rename_i hdup
        split at h
        · simp at h
        · rename_i hfull
          split at h
          · simp at h
          · rename_i hquota
            split at h
            · simp at h
            · injection h with h
              subst h
              refine ⟨?_, by omega, fun hi => ?_⟩
              · apply findEntry_none
                simp only [State.entry, Bool.or_eq_true, not_or, Option.not_isSome_iff_eq_none] at hdup
                simpa using hdup.1
              · exact Nat.lt_of_not_le (fun k => hquota ⟨imageEntry_reception he' hi, k⟩)

theorem insertEntry_lawful {p : Port} {im : InsertImage} {s : State} (h : TableLaw s) : TableLaw (insertEntry p im s) := by
  unfold insertEntry
  split
  · exact h.of_same (by simp)
  · rename_i e he
    obtain ⟨h1, h2, h3⟩ := insertCheck_ok he
    exact (addEntry_lawful h h1 h2 h3).of_same (by simp)

theorem moveRefs_lawful {x y : Option Cred} {s : State} (h : TableLaw s) : TableLaw (moveRefs x y s) := by
  unfold moveRefs
  split
  · exact h
  · cases x <;> cases y <;> simp only <;>
      first | exact addRef_lawful (dropRef_lawful h) | exact addRef_lawful h | exact dropRef_lawful h | exact h

/-- The entry after a modify keeps its credential and its issuer (R12). -/
theorem modified_some {e e' : Entry} {im : ModifyImage} (h : modified e im = some e') :
    e'.cred = e.cred ∧ e'.issuer = e.issuer := by
  unfold modified at h
  simp only [Option.bind_eq_some_iff] at h
  obtain ⟨_, _, _, _, _, _, _, _, _, _, _, _, h⟩ := h
  split at h
  · injection h with h; subst h; exact ⟨rfl, rfl⟩
  · simp at h

/-- What the checks of a modify promise (R12). -/
theorem modifyCheck_ok {s : State} {p : Port} {im : ModifyImage} {e e' : Entry} (h : modifyCheck s p im = .ok (e, e')) :
    s.entry im.cred = some e ∧ e'.cred = e.cred ∧ e'.issuer = e.issuer := by
  unfold modifyCheck at h
  split at h
  · simp at h
  · rename_i x hx
    split at h
    · simp at h
    · split at h
      · simp at h
      · rename_i y hy
        split at h
        · simp at h
        · split at h
          · simp at h
          · injection h with h
            simp only [Prod.mk.injEq] at h
            obtain ⟨rfl, rfl⟩ := h
            exact ⟨(standingEntry_some hx).1, modified_some hy⟩

theorem applyModify_lawful {e e' : Entry} {s : State} (h : TableLaw s) (he : e ∈ s.table.entries) (hc : e'.cred = e.cred)
    (hi : e'.issuer = e.issuer) : TableLaw (applyModify e e' s) := by
  have hp := h.1
  unfold TableUnit.wf at hp
  rw [sortedEntries_iff] at hp
  have k : ∀ b : Bool, TableLaw (moveRefs e.sponsor e'.sponsor (onEntry e.cred (fun x =>
      { e' with refs := x.refs, claim := if b then none else x.claim }) s)) := by
    intro b
    refine moveRefs_lawful (onEntry_lawful h (fun x hx hxc => ?_))
    have := eq_of_cred_eq hp hx he hxc
    subst this
    exact ⟨hc, hi⟩
  unfold applyModify
  dsimp only
  by_cases hw : e.sponsor ≠ e'.sponsor ∧ e.claim = some .wait
  · simp only [hw, ne_eq, not_false_eq_true, and_self, if_true]
    exact (k true).of_same (by simp)
  · simp only [hw, if_false]
    exact k false

theorem modifyEntry_lawful {p : Port} {im : ModifyImage} {s : State} (h : TableLaw s) : TableLaw (modifyEntry p im s) := by
  unfold modifyEntry
  split
  · exact h.of_same (by simp)
  · rename_i e e' he
    obtain ⟨h1, h2, h3⟩ := modifyCheck_ok he
    have k := applyModify_lawful h (State.entry_some h1).1 h2 h3
    dsimp only
    split <;> exact k.of_same (by simp)

theorem revokeEntry_lawful {p : Port} {c : Cred} {w f : Bool} {s : State} (h : TableLaw s) :
    TableLaw (revokeEntry p c w f s) := by
  unfold revokeEntry
  split
  · exact h.of_same (by simp)
  · rename_i e he
    have hm : e ∈ s.table.entries := by
      unfold revokeCheck at he
      split at he
      · simp at he
      · rename_i x hx
        split at he
        · simp at he
        · split at he
          · simp at he
          · injection he with he; subst he
            exact (State.entry_some (standingEntry_some hx).1).1
    split
    · exact askWalk_lawful h
    · exact (revokeNow_lawful (w := w) h hm).of_same (by simp)

theorem setSide_lawful {p : Port} {c : Cred} {b : Byte} {s : State} (h : TableLaw s) : TableLaw (setSide p c b s) := by
  unfold setSide
  split
  · exact h.of_same (by simp)
  · exact h.of_same (by simp)
  · rename_i x _ _
    have k : TableLaw (onEntry c (fun e => { e with side := x }) s) := onEntry_lawful h (fun _ _ _ => ⟨rfl, rfl⟩)
    exact k.of_same (by simp)

theorem purge_lawful {p : Port} {x y : Byte} {s : State} (h : TableLaw s) : TableLaw (purge p x y s) := by
  unfold purge
  split
  · exact h.of_same (by simp)
  · exact askWalk_lawful h

theorem setQuota_lawful {p : Port} {v : Nat} {s : State} (h : TableLaw s) : TableLaw (setQuota p v s) := by
  unfold setQuota
  split
  · exact h.of_same (by simp)
  · rename_i hv
    obtain ⟨h1, h2, h3, h4, h5⟩ := h
    exact ⟨h1, h2, h3, by show s.table.receptionCount ≤ v; omega, by show v ≤ Config.quotaMax; omega⟩

theorem postEntry_keeps (x : Posting) (now : Stamp) (e : Entry) :
    (postEntry x now e).cred = e.cred ∧ (postEntry x now e).issuer = e.issuer := by
  unfold postEntry
  (repeat' split) <;> exact ⟨rfl, rfl⟩

theorem post_lawful {x : Posting} {s : State} (h : TableLaw s) : TableLaw (post x s) := by
  unfold post
  split
  · exact (onEntry_lawful (c := x.cred) h (fun e _ _ => postEntry_keeps x s.stamp e)).of_same (by simp)
  · have k : TableLaw (s.onTable (fun t => { t with departed := t.departed.filter (fun d => d.tag != x.tag) })) :=
      TableUnit.lawful_of_shape h rfl rfl rfl
    exact k.of_same (by simp)

theorem createWindow_lawful {l : Lane} {e : Entry} {d : Direction} {o : Origin} {m : Bool} {s : State} (h : TableLaw s) :
    TableLaw (createWindow l e d o m s) := by
  have k : TableLaw (onEntry e.cred (fun x => { x with claim := some (.window (newWindow s l e d o m).tag) })
      ((postCall (newWindow s l e d o m) s).onLane l
        (fun u => { u with windows := u.windows ++ [newWindow s l e d o m], nextSerial := u.nextSerial + 1 }))) :=
    onEntry_lawful (h.of_same (by simp)) (fun _ _ _ => ⟨rfl, rfl⟩)
  exact k.of_same (by simp [createWindow])

theorem giveVerdict_lawful {l : Lane} {d : Direction} {c : Cred} {v : Verdict} {s : State} (h : TableLaw s) :
    TableLaw (giveVerdict l d c v s) := by
  have h' : TableLaw (verdictRecord l d c v s) := h.of_same (by simp)
  have k : TableLaw (verdictEffect l d v (verdictRecord l d c v s)) := by
    unfold verdictEffect
    split
    · exact createWindow_lawful (h'.of_same (by simp))
    · rename_i e _
      have h'' : TableLaw (endStale e.cred l (verdictRecord l d c (.await e ‹_›) s)) := h'.of_same (by simp)
      have k := onEntry_lawful (c := e.cred) (f := fun x => { x with claim := some .wait }) h'' (fun _ _ _ => ⟨rfl, rfl⟩)
      exact k.of_same (by simp [Block.same, onEntry])
    · exact h'.of_same (by simp)
    · exact h'
  exact k.of_same (by unfold giveVerdict; dsimp only; (repeat' split) <;> simp)

theorem lookupAtTable_lawful {l : Lane} {p : Presentation} {s : State} (h : TableLaw s) :
    TableLaw (lookupAtTable l p s) := by
  have h' : TableLaw (clearDecision l s) := h.of_same (by simp)
  have k := giveVerdict_lawful (l := l) (d := p.dir) (c := p.cred) (v := lookupVerdict s l p) h'
  exact k.of_same (by unfold lookupAtTable; dsimp only; split <;> simp)

theorem releaseInto_lawful {e : Entry} {l : Lane} {s : State} (h : TableLaw s) : TableLaw (releaseInto e l s) := by
  unfold releaseInto
  exact createWindow_lawful (h.of_same (by simp))

theorem releaseAtTable_lawful {v : Cred} {l : Lane} {s : State} (h : TableLaw s) : TableLaw (releaseAtTable v l s) := by
  unfold releaseAtTable
  split
  · split <;> exact h.of_same (by simp)
  · split
    · exact h.of_same (by simp)
    · split
      · rename_i e _
        split
        · exact (releaseInto_lawful (e := e) (l := l) h).of_same (by simp)
        · exact h.of_same (by simp)
      · exact h.of_same (by simp)

theorem grantDesk_lawful {p : Port} {d : DeskLookup} {e : Entry} {m : Bool} {s : State} (h : TableLaw s) :
    TableLaw (grantDesk p d e m s) := by
  have k : TableLaw (createWindow d.lane e d.dir .deskPass m (endWaitByDesk p e ⟨d.lane, (s.lane d.lane).nextSerial⟩
      (deskRecord p d (some e) (some ⟨d.lane, (s.lane d.lane).nextSerial⟩) m none s))) :=
    createWindow_lawful (h.of_same (by simp))
  exact k.of_same (by simp [grantDesk])

theorem deskAtTable_lawful {p : Port} {d : DeskLookup} {s : State} (h : TableLaw s) : TableLaw (deskAtTable p d s) := by
  unfold deskAtTable
  split
  · exact h.of_same (by simp)
  · exact h.of_same (by simp)
  · exact grantDesk_lawful h

/-! ## Looking up an entry after a change of the table -/

@[simp] theorem findEntry_nil (d : Cred) : findEntry d [] = none := rfl

theorem findEntry_cons (d : Cred) (x : Entry) (xs : List Entry) :
    findEntry d (x :: xs) = if x.cred = d then some x else findEntry d xs := by
  by_cases h : x.cred = d <;> simp [findEntry, h]

/-- Every entry changed in a way that keeps credentials. -/
theorem findEntry_map {d : Cred} {f : Entry → Entry} (hf : ∀ e, (f e).cred = e.cred) (es : List Entry) :
    findEntry d (es.map f) = (findEntry d es).map f := by
  induction es with
  | nil => rfl
  | cons x xs ih => simp only [List.map_cons, findEntry_cons, hf, ih]; split <;> rfl

/-- A change of one entry that keeps credentials: that entry is changed, any other is found as before. -/
theorem findEntry_mapEntry {c d : Cred} {f : Entry → Entry} (hf : ∀ e, (f e).cred = e.cred) (es : List Entry) :
    findEntry d (mapEntry c f es) = if d = c then (findEntry d es).map f else findEntry d es := by
  have hg : ∀ e : Entry, (if e.cred == c then f e else e).cred = e.cred := by intro e; split <;> simp [hf]
  rw [mapEntry, findEntry_map hg]
  cases h : findEntry d es with
  | none => simp
  | some e =>
    have he := (findEntry_some h).2
    by_cases hd : d = c <;> simp [hd, he]

theorem findEntry_dropEntry (c d : Cred) (es : List Entry) :
    findEntry d (dropEntry c es) = if d = c then none else findEntry d es := by
  induction es with
  | nil => simp [dropEntry]
  | cons x xs ih =>
    by_cases hx : x.cred = c
    · have : dropEntry c (x :: xs) = dropEntry c xs := by simp [dropEntry, hx]
      rw [this, ih, findEntry_cons]
      by_cases hd : d = c
      · simp [hd]
      · have : ¬ x.cred = d := fun h => hd (h ▸ hx)
        simp [hd, this]
    · have : dropEntry c (x :: xs) = x :: dropEntry c xs := by simp [dropEntry, hx]
      rw [this, findEntry_cons, findEntry_cons, ih]
      by_cases hd : x.cred = d
      · have : ¬ d = c := fun h => hx (hd.trans h)
        simp [hd, this]
      · simp [hd]

theorem findEntry_insertSorted {e : Entry} {d : Cred} : ∀ {es : List Entry}, findEntry e.cred es = none →
    findEntry d (insertSorted e es) = if d = e.cred then some e else findEntry d es
  | [], _ => by
    simp only [insertSorted, findEntry_cons, findEntry_nil]
    by_cases h : e.cred = d
    · simp [h]
    · have : ¬ d = e.cred := fun h' => h h'.symm
      simp [h, this]
  | x :: xs, hn => by
    rw [findEntry_cons] at hn
    have hx : ¬ x.cred = e.cred := by intro h; simp [h] at hn
    rw [if_neg hx] at hn
    simp only [insertSorted]
    split
    · rw [findEntry_cons]
      by_cases h : e.cred = d
      · simp [h]
      · have : ¬ d = e.cred := fun h' => h h'.symm
        simp [h, this]
    · rw [findEntry_cons, findEntry_insertSorted hn, findEntry_cons]
      by_cases h : x.cred = d
      · have : ¬ d = e.cred := fun h' => hx (h.trans h')
        simp [h, this]
      · simp [h]

theorem entry_onEntry {c d : Cred} {f : Entry → Entry} (hf : ∀ e, (f e).cred = e.cred) (s : State) :
    (onEntry c f s).entry d = if d = c then (s.entry d).map f else s.entry d := findEntry_mapEntry hf _

theorem entry_addRef (c d : Cred) (s : State) :
    (addRef c s).entry d = if d = c then (s.entry d).map (fun e => { e with refs := e.refs + 1 }) else s.entry d :=
  entry_onEntry (f := fun e => { e with refs := e.refs + 1 }) (fun _ => rfl) s

theorem entry_dropRef (c d : Cred) (s : State) :
    (dropRef c s).entry d = if d = c then (s.entry d).map (fun e => { e with refs := e.refs - 1 }) else s.entry d :=
  entry_onEntry (f := fun e => { e with refs := e.refs - 1 }) (fun _ => rfl) s

/-- A table's lookups are those of its entries. -/
theorem entry_of_entries {s t : State} (h : t.table.entries = s.table.entries) (d : Cred) : t.entry d = s.entry d := by
  simp [State.entry, h]

/-- After a removal (R9): the entry is gone, its sponsor has one ref fewer, and any other is as it was. -/
theorem entry_removeEntry (e : Entry) (d : Cred) (s : State) :
    (removeEntry e s).entry d = if d = e.cred then none
      else if e.sponsor = some d then (s.entry d).map (fun x => { x with refs := x.refs - 1 }) else s.entry d := by
  have key : (removeEntry e s).table.entries
      = dropEntry e.cred (match e.sponsor with | some p => dropRef p s | none => s).table.entries := by
    unfold removeEntry; dsimp only; split <;> rfl
  rw [State.entry, key, findEntry_dropEntry]
  split
  · rfl
  · cases hs : e.sponsor with
    | none => simp [State.entry]
    | some p =>
      have := entry_dropRef p d s
      simp only [State.entry] at this
      simp only [this, Option.some.injEq, State.entry, eq_comm]

end Sys2Proof.Machine
end

