-- ==== Sys2Proof/Tests/Slice0.lean ====
section
/-!
SUPPORT. Small tests: well-formedness refuses what it should, the manual's worked values, and for each statement states
that meet its hypotheses, clause by clause, with what the commands do there.
-/
namespace Sys2Proof.Tests

open Sys2Proof Sys2Proof.Machine

/-! ## States the tests start from -/

/-- What `p` says of the state a command answers. -/
def after (c : Instr) (s : State) (p : State → Bool) : Bool :=
  match exec c s with
  | .next u => p u
  | _ => false

/-- The outcome is this next state. -/
def gives (o : Host.Outcome State Fault Refusal) (t : State) : Bool :=
  match o with
  | .next u => decide (u = t)
  | _ => false

theorem eq_next_of_gives {o : Host.Outcome State Fault Refusal} {t : State} (h : gives o t = true) : o = .next t := by
  cases o <;> simp_all [gives]

/-- Port `p` has handed `q` on. -/
def asks (p : Port) (q : Request) (s : State) : State :=
  s.onPort p (fun u => { u with state := .inProgress, handed := some q })

/-- The reply handed to port `p`. -/
def reply (p : Port) (u : State) : Option (List Byte) := u.mail.replies.get p

/-- The circle of the third class has come to `c`. -/
def circle (c : Claimant) (s : State) : State := s.onArbiter (fun a => { a with next := c })

/-- The clock shows `v`. -/
def atTime (v : Secs) (s : State) : State := { s with clock := { s.clock with secs := v, set := true } }

/-- An agreed slot. -/
def agreed (p : Profile) : SlotRec := { SlotRec.reset with status := .agreed, profile := some p, round := false }

/-- Lane 0 in a state, with its three modules agreed and the windows given. -/
def lane0 (st : LaneState) (ws : List Window) (s : State) : State :=
  (s.onLane .l0 (fun u => { u with state := st, windows := ws })).onLine .l0 (fun u =>
    { u with drive := agreed (.leaf .overlapPair), outer := agreed (.reader 7 true), inner := agreed (.reader 7 true) })

/-- Lane 0 in READY and nothing else begun. -/
def ready : State := lane0 .ready [] State.reset

/-- A STAFF entry that everything allows. -/
def staff (c : Cred) : Entry :=
  { cred := c, cls := .staff, issuer := .security, suspended := false, responder := false, media := 7, lanes := 0xFF,
    directions := .both, passback := .strict, validFrom := none, validUntil := none, uses := none, sponsor := none,
    floor := none, side := .unknown, refs := 0, claim := none, last := none, inRemoval := false }

/-- A VISITOR entry of RECEPTION, sponsored by credential 1. -/
def visitor (c : Cred) : Entry := { staff c with cls := .visitor, issuer := .reception, sponsor := some 1 }

/-- The table holds these entries. -/
def holds (es : List Entry) (s : State) : State :=
  s.onTable (fun t => { t with
    entries := es, receptionCount := (es.filter (fun e => e.issuer == .reception)).length })

/-- A window of lane 0. -/
def window (n : Serial) (d : Direction) (st : WinState) : Window :=
  { tag := ⟨.l0, n⟩, cred := 1, cls := .staff, dir := d, origin := .presentation, state := st, created := .unset, retreats := 0,
    pastLeaf := false, passback := false, call := .none, car := none, outcome := none, openDue := none, transitDue := none,
    callDue := none, floor := none }

/-- A transaction has come to this phase. -/
def inTxn (ph : TxnPhase) (s : State) : State := { s with bus := { s.bus with seen := .busy ⟨ph, none, 32⟩ } }

/-- RESET_N is held low. -/
def held (s : State) : State := { s with resetHeld := true }

/-! ## Well-formed commands -/

theorem test_wf_requestRight : (Instr.setLane .security).wf = true ∧ (Instr.setLane .reception).wf = false
    ∧ (Instr.takeCalls .dispatch).wf = true ∧ (Instr.takeCalls .security).wf = false := by decide

theorem test_wf_credential : (Instr.sweepStep 1).wf = true ∧ (Instr.sweepStep 0).wf = false
    ∧ (Instr.forcedRevokeStep 0).wf = false ∧ (Instr.purgeFirstPassStep 0xFFFFFFFF).wf = false
    ∧ (Instr.purgeSecondPassStep 0).wf = false ∧ (Instr.escortWaitExpiry 0).wf = false
    ∧ (Instr.creditExpiry 0xFFFFFFFF).wf = false ∧ (Instr.creditExpiry 0xFFFFFFFE).wf = true := by decide

theorem test_wf_levelNotice : (Instr.noticeLevelReport .dispatch .callsPending).wf = true
    ∧ (Instr.noticeLevelReport .security .callsPending).wf = false
    ∧ (Instr.noticeLevelReport .security .alarm).wf = false := by decide

theorem test_wf_latchedNotice : (Instr.latchedNoticeSet .security .clock).wf = true
    ∧ (Instr.latchedNoticeSet .security .replyReady).wf = false := by decide

theorem test_wf_deskPass : (Instr.deskPassLookup .reception).wf = true ∧ (Instr.deskPassLookup .dispatch).wf = false := by
  decide

/-! ## Values the manual works out -/

/-- The PRESENTATION of 12.4 with its CHECK, and a command frame whose sum is 0xFF (R196). -/
theorem test_frame_check :
    frame .outer 0x8 [0xB2, 0xD0, 0x5E, 0x00, 0x01]
      = .brk :: [0xAA, 0x58, 0xB2, 0xD0, 0x5E, 0x00, 0x01, 0xC4].map .byte
    ∧ leafFrame .openIn = .brk :: (0xAA :: checkedBytes .drive 2 [2]).map .byte
    ∧ endAroundSum (checkedBytes .drive 2 [2]) = 255 ∧ header .outer 0x8 = 0x58 := by decide

/-- A PURGE is nine bytes, and a credential field that is not zero is MALFORMED (R193). -/
theorem test_purge_form :
    judgeRequest .security false [0x15, 7, 0, 0, 0, 0, 0, 7, 3] = .handedOn (.purge 7 3)
    ∧ judgeRequest .security false [0x15, 7, 0, 0, 0, 1, 0, 7, 3] = .refused .malformed
    ∧ judgeRequest .reception false [0x15, 7, 0, 0, 0, 0, 0, 7, 3] = .refused .rights
    ∧ judgeRequest .security true [0x15, 7, 0, 0, 0, 0, 0, 7, 3] = .refused .malformed
    ∧ judgeRequest .security false [0x01] = .refused .unknownRequest := by decide

/-- The eight EIGHTHS intervals of the nominal 1,000 ms (R117). -/
theorem test_pace_intervals : [0, 1, 2, 3, 4, 5, 6, 7].map (fun n => paceInterval 1000 { Group.reset with n := n })
    = [8000, 4000, 2666, 2000, 1600, 1333, 1142, 1000] := by decide

/-! ## Steps, resets and invariants -/

theorem test_step : State.reset.pending = [] ∧ step State.reset = .next { State.reset with time := 1 }
    ∧ step { State.reset with pending := [.clockAdvance, .startMark] }
      = .next { State.reset with pending := [.startMark] } :=
  ⟨rfl, eq_next_of_gives (by decide), eq_next_of_gives (by decide)⟩

theorem test_without_effect : (held .reset).resetHeld = true ∧ exec (.counts .security) (held .reset) = .next (held .reset)
    ∧ (Instr.counts .security).requestRow = some (.counts, .security) ∧ State.reset.request .security = none
    ∧ exec (.counts .security) .reset = .next .reset :=
  ⟨rfl, eq_next_of_gives (by decide), rfl, rfl, eq_next_of_gives (by decide)⟩

/-- A state with a command waiting that meets every invariant, so that each law's hypotheses are met at once. -/
theorem test_laws_met : TableLaw { State.reset with pending := [.startMark] } ∧ PlacesLaw { State.reset with pending := [.startMark] }
    ∧ EscortLaw { State.reset with pending := [.startMark] } ∧ EscortNamesLaw { State.reset with pending := [.startMark] }
    ∧ CallsLaw { State.reset with pending := [.startMark] }
    ∧ RingLaw { State.reset with pending := [.startMark] } ∧ CountsLaw { State.reset with pending := [.startMark] }
    ∧ CountersLaw { State.reset with pending := [.startMark] } ∧ AlertLaw { State.reset with pending := [.startMark] }
    ∧ BusLaw { State.reset with pending := [.startMark] }
    ∧ step { State.reset with pending := [.startMark] } = .next State.reset := by
  refine ⟨by unfold TableLaw TableUnit.Lawful; decide, ?_, by unfold EscortLaw; decide,
    by unfold EscortNamesLaw; decide, by unfold CallsLaw; decide, ?_, ?_, ?_,
    ?_, by unfold BusLaw; decide, eq_next_of_gives (by decide)⟩
  · intro l; cases l <;> decide
  · refine ⟨by decide, by decide, ?_⟩; intro p; cases p <;> decide
  · refine ⟨by decide, by decide, by decide, ?_⟩; intro n _; match n with
    | 0 | 1 | 2 | 3 | _ + 4 => rfl
  · refine ⟨?_, by decide⟩; intro l; cases l <;> (unfold Counters.fit; decide)
  · intro p; cases p <;> decide

/-- A warm reset is left: with nothing met, with an overtake met, and with EGRESS_REQ high throughout (R138, R184). -/
theorem test_leave_reset : (held .reset).safety.debounceDue = none ∧ (held .reset).safety.overtake = false
    ∧ (held .reset).safety.egress ≠ .restoring
    ∧ after (.leaveWarmReset 31) (held .reset) (fun u => u.bus.base == 29 && !u.resetHeld)
    ∧ after (.leaveWarmReset 1) { held .reset with safety := { SafetyUnit.reset with overtake := true, called := true } }
        (fun u => u.safety.egress == .egress && !u.safety.overtake && u.mail.escortClears == 1
          && u.safety.debounceDue == some 50 && u.bus.base == 2)
    ∧ after (.leaveWarmReset 1) { held .reset with safety := { SafetyUnit.reset with overtake := true, releaseWaiting := true } }
        (fun u => u.safety.egress == .restoring && !u.safety.releaseWaiting && u.safety.restorePermitted)
    ∧ after (.leaveWarmReset 1) { held .reset with safety := { SafetyUnit.reset with egress := .restoring, restorePermitted := true } }
        (fun u => u.safety.egress == .restoring && u.arbiter.amnesty)
    ∧ after (.leaveWarmReset 3) State.reset (fun u => u == State.reset)
    ∧ after (.powerOn 3 true) (held .reset) (fun u => u.bus.base == 3 && u.safety.debounceDue == some 50 && !u.resetHeld) := by
  decide

theorem test_warm_reset : after .warmReset (lane0 .serving [window 0 .entry .opened] .reset)
    (fun u => u.resetHeld && (u.lane .l0).windows.isEmpty && (u.lane .l0).state == .enumerating) := by decide

/-- BANK_RESET clears the windows, the slot and the lanes, and keeps the entries (R81, R191). -/
theorem test_bank_reset :
    (asks .security .bankReset (holds [staff 1] (lane0 .serving [window 0 .entry .opened] .reset))).request .security
      = some .bankReset
    ∧ after (.bankReset .security 5) (asks .security .bankReset (holds [staff 1] (lane0 .serving [window 0 .entry .opened] .reset)))
        (fun u => u.table.entries == [staff 1] && (u.lane .l0).windows.isEmpty && (u.lane .l0).state == .enumerating
          && u.ports == .fill PortUnit.reset && !u.resetHeld && u.bus.base == 5 && u.bus.seen == .ignoring) := by decide

/-! ## Foyer Bus -/

theorem test_start_mark : (inTxn .address .reset).bus.seen ≠ .idle
    ∧ after .startMark { State.reset with bus := { BusUnit.reset with seen := .idle } }
        (fun u => u.bus.seen == .busy ⟨.address, none, 32⟩)
    ∧ after .stopMark State.reset (fun u => u.bus.seen == .idle) ∧ after .repeatedStart State.reset (fun u => u == State.reset)
    ∧ after .stopMark (inTxn .aside .reset) (fun u => u.bus.seen == .idle)
    ∧ after .repeatedStart (inTxn (.held .security 0) .reset) (fun u => u.bus.seen == .busy ⟨.address, none, 32⟩) := by decide

/-- After a BANK_RESET that is handed on, a start mark and a repeated start begin nothing until its reset (R191). -/
theorem test_start_after_bank_reset :
    (asks .security .bankReset { State.reset with bus := { BusUnit.reset with seen := .idle } }).request .security = some .bankReset
    ∧ after .startMark (asks .security .bankReset { State.reset with bus := { BusUnit.reset with seen := .idle } })
        (fun u => u.bus.seen == .idle)
    ∧ after .repeatedStart (inTxn (.write .security) (State.reset.onPort .security (fun u => { u with state := .receiving, buffer := [0x7F] })))
        (fun u => u.bus.seen == .idle && u.request .security == some .bankReset) := by decide

/-- A write's stop mark: no byte, a request handed on, a request refused; and a broadcast's (R185 to R187, R193). -/
theorem test_stop_mark :
    after .stopMark (inTxn (.write .security) (State.reset.onPort .security (fun u => { u with state := .receiving, fromReady := true })))
        (fun u => (u.port .security).state == .replyReady)
    ∧ judgeRequest .reception false [0x41] = .handedOn .counts
    ∧ after .stopMark (inTxn (.write .reception) (State.reset.onPort .reception (fun u => { u with state := .receiving, buffer := [0x41] })))
        (fun u => (u.port .reception).state == .inProgress && u.request .reception == some .counts)
    ∧ judgeRequest .reception false [0x3C] = .refused .rights
    ∧ after .stopMark (inTxn (.write .reception) (State.reset.onPort .reception (fun u => { u with state := .receiving, buffer := [0x3C] })))
        (fun u => (u.port .reception).slot == some [5, 0] && (u.port .reception).state == .replyReady)
    ∧ after .stopMark (inTxn (.broadcast [0x70, 4, 0, 0, 0, 9] false) .reset) (fun u => u.mail.beacons == [9])
    ∧ after .stopMark (inTxn (.broadcast [0x70, 4, 0, 0, 0] false) .reset) (fun u => u.mail.beacons == [])
    ∧ after .stopMark (inTxn (.broadcast [0x70, 4, 0, 0, 0, 9] true) .reset) (fun u => u.mail.beacons == []) := by decide

/-- Address bytes at base 2: the ports at 8, 9 and 10, the broadcast address, and addresses beside them (R184, R185). -/
theorem test_address_byte : BusLaw (inTxn .address .reset) ∧ (inTxn .address .reset).bus.seen = .busy ⟨.address, none, 32⟩
    ∧ after (.addressByte 16) (inTxn .address .reset)
        (fun u => (u.port .security).state == .receiving && u.bus.lastAck == some .acknowledged)
    ∧ after (.addressByte 20) (inTxn .address (asks .dispatch .counts .reset))
        (fun u => u.bus.lastAck == some .refused && u.bus.seen == .busy ⟨.aside, some .dispatch, 32⟩)
    ∧ after (.addressByte 19) (inTxn .address .reset) (fun u => u.bus.seen == .busy ⟨.read .reception (.fixed [2, 0]) 0, some .reception, 32⟩)
    ∧ after (.addressByte 17) (inTxn .address (asks .security .counts .reset))
        (fun u => u.bus.seen == .busy ⟨.held .security 0, some .security, 32⟩)
    ∧ after (.addressByte 0) (inTxn .address .reset) (fun u => u.bus.seen == .busy ⟨.broadcast [] false, none, 32⟩)
    ∧ after (.addressByte 1) (inTxn .address .reset) (fun u => u.bus.lastAck == some .refused)
    ∧ after (.addressByte 22) (inTxn .address .reset) (fun u => u.bus.lastAck == some .unanswered)
    ∧ after (.addressByte 14) (inTxn .address .reset) (fun u => u.bus.lastAck == some .unanswered) := by unfold BusLaw; decide

/-- The fortieth and the forty-first byte of a write and of a broadcast, and a byte of another's transaction (R186). -/
theorem test_data_byte :
    after (.requestDataByte 7) (inTxn (.write .security) (State.reset.onPort .security (fun u => { u with buffer := List.replicate 39 0 })))
        (fun u => (u.port .security).buffer.length == 40 && u.bus.lastAck == some .acknowledged)
    ∧ after (.requestDataByte 7) (inTxn (.write .security) (State.reset.onPort .security (fun u => { u with buffer := List.replicate 40 0 })))
        (fun u => (u.port .security).overlong && u.bus.lastAck == some .refused)
    ∧ after (.requestDataByte 7) (inTxn (.broadcast (List.replicate 39 0) false) .reset) (fun u => u.bus.lastAck == some .acknowledged)
    ∧ after (.requestDataByte 7) (inTxn (.broadcast (List.replicate 40 0) false) .reset)
        (fun u => u.bus.seen == .busy ⟨.broadcast (List.replicate 40 0) true, none, 32⟩)
    ∧ after (.requestDataByte 7) (inTxn .aside .reset) (fun u => u.bus.lastAck == some .unanswered) := by decide

/-- A reply of two bytes and then filler; the last byte empties the slot (R188). -/
theorem test_reply_byte :
    after (.replyByteSent true) (inTxn (.read .security .slot 0) (State.reset.onPort .security (fun u => { u with state := .replyReady, slot := some [0, 0] })))
        (fun u => u.bus.lastByte == some 0 && u.bus.seen == .busy ⟨.read .security .slot 1, none, 32⟩)
    ∧ after (.replyByteSent false) (inTxn (.read .security .slot 1) (State.reset.onPort .security (fun u => { u with state := .replyReady, slot := some [0, 0] })))
        (fun u => (u.port .security).state == .idle && (u.port .security).slot == none
          && u.mail.notices == [.level .security .replyReady false])
    ∧ after (.replyByteSent true) (inTxn (.read .security (.fixed [2, 0]) 2) .reset) (fun u => u.bus.lastByte == some 0xFF) := by decide

/-- A reply that reaches its slot, with and without a held read; the 25 ms hold; the stall limit; and SET_BUS at its
bounds (R187, R189, R190). -/
theorem test_reply_to_slot : ((answer .security .ok [] .reset).mail.replies.get .security) = some [0, 0]
    ∧ after (.replyToSlot .security) (answer .security .ok [] .reset) (fun u => (u.port .security).slot == some [0, 0])
    ∧ after (.replyToSlot .security) (inTxn (.held .security 0) (answer .security .ok [] .reset))
        (fun u => u.bus.seen == .busy ⟨.read .security .slot 0, none, 32⟩)
    ∧ after .holdLimitExpiry (inTxn (.held .security 0) { State.reset with time := 25 })
        (fun u => u.bus.seen == .busy ⟨.read .security (.fixed [1, 0]) 0, none, 32⟩)
    ∧ after .holdLimitExpiry (inTxn (.held .security 0) { State.reset with time := 24 })
        (fun u => u.bus.seen == .busy ⟨.held .security 0, none, 32⟩)
    ∧ after .stallLimitExpiry (inTxn .address { State.reset with time := 33 }) (fun u => u.bus.seen == .ignoring)
    ∧ after .stallLimitExpiry (inTxn .address { State.reset with pins := ⟨0, false, [1, 40]⟩, time := 33 }) (fun u => u.bus.seen != .ignoring)
    ∧ after .stallLimitExpiry (inTxn .address { State.reset with pins := ⟨0, false, [1, 40]⟩, time := 34 }) (fun u => u.bus.seen == .ignoring)
    ∧ after .stallLimitExpiry (inTxn .address { State.reset with time := 32 }) (fun u => u.bus.seen != .ignoring)
    ∧ after .stallLimitExpiry (inTxn (.held .security 0) { State.reset with time := 99 }) (fun u => u.bus.seen != .ignoring)
    ∧ Asked .security (.setBus 3) (asks .security (.setBus 3) .reset)
    ∧ after (.setBus .security) (asks .security (.setBus 7) .reset) (fun u => u.bus.stallK == 7)
    ∧ after (.setBus .security) (asks .security (.setBus 2) .reset) (fun u => reply .security u == some [6, 0])
    ∧ after (.setBus .security) (asks .security (.setBus 8) .reset) (fun u => reply .security u == some [6, 0]) := by
  unfold Asked; decide

/-! ## Lobby clock -/

/-- An advance at 1,000 ms, a wrap, a minute that starts a sweep, and one that is skipped (R161, R162). -/
theorem test_clock_advance : after .clockAdvance { State.reset with time := 999 } (fun u => u.clock.secs == 0)
    ∧ after .clockAdvance { State.reset with time := 1000 } (fun u => u.clock.secs == 1 && u.clock.mark == 1000)
    ∧ after .clockAdvance (held { State.reset with time := 1000 }) (fun u => u.clock.secs == 1)
    ∧ after .clockAdvance (atTime 0xFFFFFFFF { State.reset with time := 1000 })
        (fun u => u.clock.secs == 0 && !u.clock.set && u.mail.notices.length == 3 && u.mail.records.length == 1)
    ∧ after .clockAdvance (atTime 59 (holds [staff 1] { State.reset with time := 1000 })) (fun u => u.table.walk == some (.sweep [1] 0))
    ∧ after .clockAdvance (atTime 59 ({ State.reset with time := 1000 }.onTable (fun t => { t with walk := some (.sweep [] 0) })))
        (fun u => u.mail.records.map (fun r => r.2.code) == [.table .sweepSkipped])
    ∧ after .clockAdvance (atTime 60 (holds [staff 1] { State.reset with time := 1000 })) (fun u => u.table.walk == none) := by decide

theorem test_clock_requests : Asked .security (.setClock 9) (asks .security (.setClock 9) .reset)
    ∧ after (.setClock .security) (asks .security (.setClock 9) .reset)
        (fun u => u.clock.secs == 9 && u.clock.set && reply .security u == some [0, 5, 0, 0, 0, 0, 1])
    ∧ after (.setClockSource .security) (asks .security (.setClockSource 1) .reset) (fun u => u.clock.source == .beacon)
    ∧ after (.setClockSource .security) (asks .security (.setClockSource 0) .reset) (fun u => u.clock.source == .securityOnly)
    ∧ after (.setClockSource .security) (asks .security (.setClockSource 2) .reset) (fun u => reply .security u == some [6, 0])
    ∧ after (.readClock .security) (asks .security .readClock { State.reset with clock := ⟨9, true, 0, .beacon, 255⟩ })
        (fun u => u.clock.disagree == 0 && reply .security u == some [0, 7, 0, 0, 0, 9, 0, 1, 255])
    ∧ after (.readClock .dispatch) (asks .dispatch .readClock { State.reset with clock := ⟨9, true, 0, .beacon, 255⟩ })
        (fun u => u.clock.disagree == 255) := by unfold Asked; decide

/-- Beacons: ignored, setting, the same, a step of 5, and one of 6 that is rejected (R165). -/
theorem test_beacons :
    after .timeBeacon ({ State.reset with mail := { Mail.reset with beacons := [9] } }) (fun u => u.clock == ClockUnit.reset)
    ∧ after .timeBeacon ({ State.reset with clock := ⟨0, false, 0, .beacon, 0⟩, mail := { Mail.reset with beacons := [9] } })
        (fun u => u.clock == ⟨9, true, 0, .beacon, 0⟩)
    ∧ after .timeBeacon ({ State.reset with clock := ⟨9, true, 0, .beacon, 0⟩, mail := { Mail.reset with beacons := [9] } })
        (fun u => u.mail.records == [])
    ∧ after .timeBeacon ({ State.reset with clock := ⟨4, true, 0, .beacon, 0⟩, mail := { Mail.reset with beacons := [9] } })
        (fun u => u.clock.secs == 9 && u.mail.notices == [])
    ∧ after .timeBeacon ({ State.reset with clock := ⟨15, true, 0, .beacon, 255⟩, mail := { Mail.reset with beacons := [9] } })
        (fun u => u.clock.secs == 15 && u.clock.disagree == 255 && u.mail.notices.length == 3) := by decide

/-! ## Occupancy and governor -/

/-- Counting at both bounds, and the group that a source at its high gate makes ACTIVE (R112, R115, R118). -/
theorem test_counts : Asked .dispatch .counts (asks .dispatch .counts .reset)
    ∧ after (.counts .dispatch) (asks .dispatch .counts .reset)
        (fun u => reply .dispatch u == some [0, 10, 0, 0, 0, 0, 0, 0, 0, 0, 0, 0])
    ∧ after (.occupancyPassage .l0) { State.reset with
          occupancy := { OccupancyUnit.reset with
            groups := OccupancyUnit.reset.groups.set 1 ⟨true, .staff, 1, 0, .closeEntry, .eighths, 7, 0, false⟩ }
          mail := { Mail.reset with passages := [⟨.l1, .staff, .exit⟩, ⟨.l0, .staff, .entry⟩] } }
        (fun u => u.occupancy.counts == ⟨1, 0, 0⟩ && (u.occupancy.groups.get 1).active && u.mail.actions.length == 8
          && u.mail.passages == [⟨.l1, .staff, .exit⟩])
    ∧ after (.occupancyPassage .l1) { State.reset with mail := { Mail.reset with passages := [⟨.l1, .staff, .exit⟩] } }
        (fun u => u.occupancy.uncertain && u.occupancy.counts == ⟨0, 0, 0⟩)
    ∧ after (.occupancyPassage .l1) { State.reset with
          occupancy := { OccupancyUnit.reset with counts := ⟨65535, 0, 1⟩ }
          mail := { Mail.reset with passages := [⟨.l1, .staff, .entry⟩] } }
        (fun u => u.occupancy.uncertain && u.occupancy.counts == ⟨65535, 0, 1⟩)
    ∧ after (.occupancyPassage .l0) .reset (fun u => u == State.reset) := by unfold Asked; decide

/-- SET_COUNTS beyond its range, and as a whole (R114). -/
theorem test_set_counts : Asked .security (.setCounts 65535 0 3) (asks .security (.setCounts 65535 0 3) .reset)
    ∧ after (.setCounts .security) (asks .security (.setCounts 65535 0 3) .reset) (fun u => u.occupancy.counts == ⟨65535, 0, 3⟩)
    ∧ after (.setCounts .security) (asks .security (.setCounts 65536 0 3) .reset) (fun u => reply .security u == some [6, 0]) := by
  unfold Asked; decide

/-- SET_GOVERNOR: no such group, a field given for no group, the nominal interval alone, a low gate that meets the high
one, and a group that becomes ACTIVE (R116, R121). -/
theorem test_governor :
    Asked .security (.setGovernor 0xFF ⟨none, none, none, none, none, none, none, none⟩ (some 250))
      (asks .security (.setGovernor 0xFF ⟨none, none, none, none, none, none, none, none⟩ (some 250)) .reset)
    ∧ after (.setGovernor .security) (asks .security (.setGovernor 4 ⟨none, none, none, none, none, none, none, none⟩ none) .reset)
        (fun u => reply .security u == some [6, 0])
    ∧ after (.setGovernor .security) (asks .security (.setGovernor 0xFF ⟨some 1, none, none, none, none, none, none, none⟩ none) .reset)
        (fun u => reply .security u == some [6, 0])
    ∧ after (.setGovernor .security) (asks .security (.setGovernor 0xFF ⟨none, none, none, none, none, none, none, none⟩ (some 250)) .reset)
        (fun u => u.occupancy.nominal == 250 && reply .security u == some [0, 1, 0xFF])
    ∧ after (.setGovernor .security) (asks .security (.setGovernor 0 ⟨none, none, some 5, some 5, none, none, none, none⟩ none) .reset)
        (fun u => reply .security u == some [6, 0])
    ∧ after (.setGovernor .security) (asks .security (.setGovernor 3 ⟨some 1, none, some 5, some 4, none, none, none, none⟩ none)
          { State.reset with occupancy := { OccupancyUnit.reset with counts := ⟨5, 0, 0⟩ } })
        (fun u => (u.occupancy.groups.get 3).active && reply .security u == some [0, 2, 0, 3] && u.mail.actions.length == 8
          && u.mail.notices.length == 3 && u.mail.records.map (fun r => r.2.code) == [.bank .governor])
    ∧ after (.setCounts .security) (asks .security (.setCounts 1 0 0) { State.reset with occupancy := { OccupancyUnit.reset with
          groups := OccupancyUnit.reset.groups.set 1 ⟨true, .staff, 1, 0, .closeEntry, .eighths, 7, 0, false⟩ } })
        (fun u => u.mail.actions.length == 8 && u.mail.records.map (fun r => r.2.code) == [.bank .countsSet, .bank .governor]) := by
  unfold Asked; decide

theorem test_governor_status : Asked .reception .governorStatus (asks .reception .governorStatus .reset)
    ∧ after (.governorStatus .reception) (asks .reception .governorStatus .reset) (fun u => (reply .reception u).isSome)
    ∧ after (.activeActionUpdate .l0) (lane0 .serving [window 0 .entry .paced] { State.reset with
          mail := { Mail.reset with actions := [(.l1, .none), (.l0, .none)] } })
        (fun u => u.mail.actions == [(.l1, .none)] && (u.lane .l0).windows.map (·.state) == [.opened]) := by unfold Asked; decide

/-! ## Journal and notices -/

/-- Records: owed to none, joining, and displacing from a full ring (R170 to R172). -/
theorem test_journal_append :
    after (.journalAppend .clock) (handOver .clock { time := .unset, code := .clock .wrapped }
        { State.reset with journal := { JournalUnit.reset with subs := .fill 0 } }) (fun u => u.journal.ring == [] && u.mail.records == [])
    ∧ after (.journalAppend .clock) (handOver .clock { time := .unset, code := .clock .wrapped } .reset)
        (fun u => u.journal.ring.map (·.owed) == [⟨true, false, false⟩])
    ∧ after (.journalAppend .clock) (handOver .clock { time := .unset, code := .clock .wrapped }
          { State.reset with journal := { JournalUnit.reset with
              ring := ⟨{ time := .unset, code := .passage }, ⟨true, true, false⟩, 0⟩
                :: List.replicate 511 ⟨{ time := .unset, code := .passage }, ⟨true, false, false⟩, 1⟩ } })
        (fun u => u.journal.ring.length == 512 && u.journal.lost == ⟨1, 1, 0⟩)
    ∧ after (.journalAppend .table) .reset (fun u => u == State.reset) := by decide +kernel

theorem test_journal_requests :
    Asked .dispatch (.readJournal 4) (asks .dispatch (.readJournal 4) .reset)
    ∧ after (.readJournal .dispatch) (asks .dispatch (.readJournal 4) .reset) (fun u => reply .dispatch u == some [0, 2, 0, 0])
    ∧ after (.readJournal .dispatch) (asks .dispatch (.readJournal 5) .reset) (fun u => reply .dispatch u == some [6, 0])
    ∧ after (.readJournal .dispatch) (asks .dispatch (.readJournal 0) .reset) (fun u => reply .dispatch u == some [6, 0])
    ∧ after (.readJournal .security) (asks .security (.readJournal 1) { State.reset with journal := { JournalUnit.reset with
          ring := [⟨{ time := .unset, code := .passage }, ⟨true, false, false⟩, 0⟩, ⟨{ time := .unset, code := .passage }, ⟨true, true, false⟩, 1⟩] } })
        (fun u => u.journal.ring.length == 1 && (reply .security u).map List.length == some 20)
    ∧ after (.subscribe .dispatch) (asks .dispatch (.subscribe 1023) .reset)
        (fun u => u.journal.subs.dispatch == 1023 && reply .dispatch u == some [0, 2, 0, 0x22])
    ∧ after (.subscribe .dispatch) (asks .dispatch (.subscribe 1024) .reset) (fun u => reply .dispatch u == some [6, 0])
    ∧ after (.journalStatus .security) (asks .security .journalStatus { State.reset with journal := { JournalUnit.reset with lost := .fill 255 } })
        (fun u => u.journal.lost == ⟨0, 255, 255⟩ && reply .security u == some [0, 7, 3, 0xFF, 0, 0, 255, 0, 0]) := by
  unfold Asked; decide

theorem test_notices :
    after (.noticeLevelReport .security .replyReady) (reportLevel .security .replyReady true
        { State.reset with notices := .fill ⟨0, 0, false, false⟩ }) (fun u => u.notices.security == ⟨1, 0, false, true⟩ && u.mail.notices == [])
    ∧ after (.latchedNoticeSet .dispatch .clock) (notify .dispatch .clock .reset) (fun u => u.notices.dispatch == ⟨0x100, 0x1FF, true, false⟩)
    ∧ after (.noticeLevelReport .security .replyReady) .reset (fun u => u == State.reset)
    ∧ Asked .security .readNotices (asks .security .readNotices { State.reset with notices := .fill ⟨0x1FF, 0, false, true⟩ })
    ∧ after (.readNotices .security) (asks .security .readNotices { State.reset with notices := .fill ⟨0x1FF, 0, false, true⟩ })
        (fun u => u.notices.security == ⟨7, 0, false, true⟩)
    ∧ after (.setNoticeMask .security) (asks .security (.setNoticeMask 4 0) .reset) (fun u => reply .security u == some [6, 0])
    ∧ after (.setNoticeMask .dispatch) (asks .dispatch (.setNoticeMask 0x204 0) { State.reset with notices := .fill ⟨4, 0x1FF, true, false⟩ })
        (fun u => u.notices.dispatch == ⟨4, 0x1FB, false, true⟩)
    ∧ after (.setNoticeMask .security) (asks .security (.setNoticeMask 0 0) .reset) (fun u => u.notices.security == NoticeUnit.reset) := by
  unfold Asked; decide

/-! ## The Permit Table -/

theorem test_table_requests :
    AskedAtTable .security (.queryEntry 1) (asks .security (.queryEntry 1) (holds [staff 1] .reset))
    ∧ after (.queryEntry .security) (asks .security (.queryEntry 2) (holds [staff 1] .reset)) (fun u => reply .security u == some [7, 0])
    ∧ after (.queryEntry .security) (asks .security (.queryEntry 1) (holds [{ staff 1 with inRemoval := true }] .reset))
        (fun u => reply .security u == some [7, 0])
    ∧ after (.queryEntry .security) (asks .security (.queryEntry 1) (holds [staff 1] .reset)) (fun u => reply .security u
        == some [0, 20, 0, 0, 0, 1, 0x20, 0x17, 0xFF, 0, 0, 0, 0, 0, 0, 0, 0, 0, 0, 0, 0, 0]) := by
  unfold AskedAtTable Asked; decide

theorem test_set_side : AskedAtTable .security (.setSide 1 1) (asks .security (.setSide 1 1) (holds [staff 1] .reset))
    ∧ after (.setSide .security) (asks .security (.setSide 2 1) (holds [staff 1] .reset)) (fun u => reply .security u == some [7, 0])
    ∧ after (.setSide .security) (asks .security (.setSide 1 3) (holds [staff 1] .reset)) (fun u => reply .security u == some [6, 0])
    ∧ after (.setSide .security) (asks .security (.setSide 1 1) (holds [staff 1] .reset))
        (fun u => u.entry 1 == some { staff 1 with side := .inside }) := by unfold AskedAtTable Asked; decide

theorem test_quota_and_status : AskedAtTable .security (.setQuota 2048) (asks .security (.setQuota 2048) .reset)
    ∧ after (.setQuota .security) (asks .security (.setQuota 2048) .reset) (fun u => u.table.quota == 2048)
    ∧ after (.setQuota .security) (asks .security (.setQuota 2049) .reset) (fun u => reply .security u == some [6, 0])
    ∧ after (.setQuota .security) (asks .security (.setQuota 0) (holds [visitor 2] .reset)) (fun u => reply .security u == some [6, 0])
    ∧ AskedAtTable .reception .tableStatus (asks .reception .tableStatus (holds [visitor 2] .reset))
    ∧ after (.tableStatus .reception) (asks .reception .tableStatus (holds [visitor 2] .reset))
        (fun u => reply .reception u == some [0, 8, 0, 1, 0, 1, 4, 0, 0, 0]) := by unfold AskedAtTable Asked; decide

/-- INSERT_ENTRY in the order of its checks (R8, R11): RECEPTION's rights, the image, a duplicate, a full quota, the
sponsor absent, no STAFF and full, and the entry added. -/
theorem test_insert :
    AskedAtTable .reception (.insertEntry ⟨2, 0xA0, 0x17, 0xFF, 8, none, none, none, some 1, none⟩)
      (asks .reception (.insertEntry ⟨2, 0xA0, 0x17, 0xFF, 8, none, none, none, some 1, none⟩) (holds [staff 1] .reset))
    ∧ after (.insertEntry .reception) (asks .reception (.insertEntry ⟨2, 0x20, 0x17, 0xFF, 0, none, none, none, none, none⟩) .reset)
        (fun u => reply .reception u == some [5, 0])
    ∧ after (.insertEntry .security) (asks .security (.insertEntry ⟨2, 0x20, 0x37, 0xFF, 0, none, none, none, none, none⟩) .reset)
        (fun u => reply .security u == some [6, 0])
    ∧ after (.insertEntry .security) (asks .security (.insertEntry ⟨1, 0x20, 0x17, 0xFF, 0, none, none, none, none, none⟩) (holds [staff 1] .reset))
        (fun u => reply .security u == some [8, 0])
    ∧ after (.insertEntry .security) (asks .security (.insertEntry ⟨1, 0x20, 0x17, 0xFF, 0, none, none, none, none, none⟩)
          (State.reset.onTable (fun t => { t with departed := [⟨⟨.l0, 0⟩, 1⟩] }))) (fun u => reply .security u == some [8, 0])
    ∧ after (.insertEntry .reception) (asks .reception (.insertEntry ⟨2, 0xA0, 0x17, 0xFF, 8, none, none, none, some 1, none⟩)
          ((holds [staff 1] .reset).onTable (fun t => { t with quota := 0 }))) (fun u => reply .reception u == some [10, 0])
    ∧ after (.insertEntry .reception) (asks .reception (.insertEntry ⟨2, 0xA0, 0x17, 0xFF, 8, none, none, none, some 3, none⟩)
          (holds [staff 1] .reset)) (fun u => reply .reception u == some [11, 0])
    ∧ after (.insertEntry .reception) (asks .reception (.insertEntry ⟨2, 0xA0, 0x17, 0xFF, 8, none, none, none, some 1, none⟩)
          (holds [{ staff 1 with refs := 255 }] .reset)) (fun u => reply .reception u == some [12, 0])
    ∧ after (.insertEntry .reception) (asks .reception (.insertEntry ⟨2, 0xA0, 0x17, 0xFF, 8, none, none, none, some 1, none⟩)
          (holds [{ staff 1 with refs := 254 }] .reset))
        (fun u => reply .reception u == some [0, 0] && u.entry 2 == some (visitor 2) && u.table.receptionCount == 1
          && u.entry 1 == some { staff 1 with refs := 255 }) := by unfold AskedAtTable Asked; decide

/-- A modify that changes nothing it does not name. -/
def bareModify (c : Cred) : ModifyImage :=
  ⟨c, false, false, none, none, none, none, none, none, none, .keep, .keep, .keep, .keep, .keep⟩

/-- A VISITOR entry with no sponsor. -/
def guest (c : Cred) : Entry := { visitor c with sponsor := none }

/-- MODIFY_ENTRY: its refusals, a sponsor cleared with its WAIT ended, a sponsor given, and a withdrawal (R12, R13). -/
theorem test_modify :
    AskedAtTable .security (.modifyEntry (bareModify 1)) (asks .security (.modifyEntry (bareModify 1)) (holds [staff 1] .reset))
    ∧ after (.modifyEntry .security) (asks .security (.modifyEntry (bareModify 1)) .reset) (fun u => reply .security u == some [7, 0])
    ∧ after (.modifyEntry .reception) (asks .reception (.modifyEntry (bareModify 1)) (holds [staff 1] .reset)) (fun u => reply .reception u == some [5, 0])
    ∧ after (.modifyEntry .security) (asks .security (.modifyEntry { bareModify 1 with foreign := true }) (holds [staff 1] .reset))
        (fun u => reply .security u == some [6, 0])
    ∧ after (.modifyEntry .security) (asks .security (.modifyEntry { bareModify 2 with sponsor := .set 2 }) (holds [guest 2] .reset))
        (fun u => reply .security u == some [11, 0])
    ∧ after (.modifyEntry .security) (asks .security (.modifyEntry { bareModify 2 with sponsor := .set 1 }) (holds [{ staff 1 with refs := 255 }, guest 2] .reset))
        (fun u => reply .security u == some [12, 0])
    ∧ after (.modifyEntry .security) (asks .security (.modifyEntry { bareModify 1 with cls := some 2 }) (holds [{ staff 1 with refs := 1 }] .reset))
        (fun u => reply .security u == some [13, 0])
    ∧ after (.modifyEntry .reception) (asks .reception (.modifyEntry { bareModify 2 with sponsor := .clear })
          (holds [{ staff 1 with refs := 1 }, { visitor 2 with claim := some .wait }] .reset))
        (fun u => u.entry 2 == some { visitor 2 with sponsor := none } && u.entry 1 == some (staff 1) && u.mail.escortEnds == [.wait 2])
    ∧ after (.modifyEntry .security) (asks .security (.modifyEntry { bareModify 2 with sponsor := .set 1, withdraw := true })
          (holds [staff 1, { guest 2 with claim := some (.window ⟨.l3, 9⟩) }] .reset))
        (fun u => u.entry 1 == some { staff 1 with refs := 1 } && u.mail.withdrawals == [⟨.l3, 9⟩] && reply .security u == some [0, 1, 1]) := by
  unfold AskedAtTable Asked; decide

/-- REVOKE_ENTRY: its refusals, the walk asked for with the walker free and busy, and an entry removed (R14, R15). -/
theorem test_revoke :
    AskedAtTable .security (.revokeEntry 1 true true) (asks .security (.revokeEntry 1 true true) (holds [staff 1] .reset))
    ∧ after (.revokeEntry .security) (asks .security (.revokeEntry 1 false false) .reset) (fun u => reply .security u == some [7, 0])
    ∧ after (.revokeEntry .reception) (asks .reception (.revokeEntry 1 false false) (holds [staff 1] .reset)) (fun u => reply .reception u == some [5, 0])
    ∧ after (.revokeEntry .security) (asks .security (.revokeEntry 1 false false) (holds [{ staff 1 with refs := 1 }] .reset))
        (fun u => reply .security u == some [13, 0])
    ∧ after (.revokeEntry .security) (asks .security (.revokeEntry 1 true true) (holds [{ staff 1 with refs := 1 }] .reset))
        (fun u => reply .security u == none && u.table.walk == some (.forcedRevoke 1 true false [] 0 false))
    ∧ after (.revokeEntry .security) (asks .security (.revokeEntry 1 true true) ((holds [{ staff 1 with refs := 1 }] .reset).onTable
          (fun t => { t with walk := some (.sweep [1] 0) }))) (fun u => u.table.waiting == some (.forcedRevoke 1 true))
    ∧ after (.revokeEntry .security) (asks .security (.revokeEntry 2 true false)
          (holds [{ staff 1 with refs := 1 }, { visitor 2 with claim := some (.window ⟨.l1, 4⟩) }] .reset))
        (fun u => u.entry 2 == none && u.entry 1 == some (staff 1) && u.table.receptionCount == 0
          && u.table.departed == [⟨⟨.l1, 4⟩, 2⟩] && u.mail.withdrawals == [⟨.l1, 4⟩] && reply .security u == some [0, 1, 1]) := by
  unfold AskedAtTable Asked; decide

theorem test_purge : AskedAtTable .security (.purge 7 3) (asks .security (.purge 7 3) (holds [staff 1] .reset))
    ∧ after (.purge .security) (asks .security (.purge 7 3) (holds [staff 1] .reset)) (fun u => u.table.walk == some (.purge 7 3 .first [1] 0))
    ∧ after (.purge .security) (asks .security (.purge 8 3) .reset) (fun u => reply .security u == some [6, 0])
    ∧ after (.purge .security) (asks .security (.purge 7 0) .reset) (fun u => reply .security u == some [6, 0])
    ∧ after (.purge .security) (asks .security (.purge 7 3) (State.reset.onTable (fun t => { t with walk := some (.sweep [] 0) })))
        (fun u => u.table.waiting == some (.purge 7 3)) := by unfold AskedAtTable Asked; decide

/-- The walker is at this walk, and its turn has come. -/
def walks (w : Walk) (es : List Entry) : State := circle .walker ((holds es .reset).onTable (fun t => { t with walk := some w }))

theorem test_purge_steps : WalkerTurn (walks (.purge 4 3 .first [1, 2] 0) [{ staff 1 with refs := 1 }, visitor 2])
    ∧ after (.purgeFirstPassStep 2) (walks (.purge 4 3 .first [1, 2] 0) [{ staff 1 with refs := 1 }, visitor 2])
        (fun u => u.entry 2 == none && u.table.walk == some (.purge 4 3 .first [1] 1) && u.entry 1 == some (staff 1))
    ∧ after (.purgeFirstPassStep 1) (walks (.purge 1 3 .first [1] 0) [{ staff 1 with refs := 1 }, visitor 2])
        (fun u => u.entry 1 == some { staff 1 with refs := 1, inRemoval := true } && u.table.walk == some (.purge 1 3 .second [1, 2] 0))
    ∧ after (.purgeFirstPassStep 1) (walks (.purge 4 3 .first [1] 0) [staff 1]) (fun u => u.table.entries == [staff 1])
    ∧ after (.purgeFirstPassStep 9) (walks (.purge 4 3 .first [] 0) []) (fun u => u.table.walk == some (.purge 4 3 .final [] 0))
    ∧ after (.purgeSecondPassStep 2) (walks (.purge 1 3 .second [2] 0) [{ staff 1 with refs := 1, inRemoval := true }, { visitor 2 with claim := some .wait }])
        (fun u => u.entry 2 == some { visitor 2 with sponsor := none, suspended := true } && u.table.walk == some (.purge 1 3 .final [] 0)
          && u.mail.escortEnds == [.wait 2])
    ∧ after (.purgeSecondPassStep 2) (walks (.purge 1 3 .second [2, 1] 0) [{ staff 1 with refs := 1 }, visitor 2])
        (fun u => u.entry 2 == some (visitor 2))
    ∧ after .purgeFinalStep (walks (.purge 1 3 .final [] 4) [{ staff 1 with inRemoval := true }])
        (fun u => u.entry 1 == none && u.table.walk == none && reply .security u == some [0, 2, 0, 5])
    ∧ after (.purgeFirstPassStep 2) (walks (.purge 4 3 .first [2] 5) [{ staff 1 with refs := 1 }, visitor 2])
        (fun u => u.table.walk == some (.purge 4 3 .second [1] 6))
    ∧ after (.purgeSecondPassStep 9) (walks (.purge 4 3 .second [] 6) [staff 1]) (fun u => u.table.walk == some (.purge 4 3 .final [] 6))
    ∧ after .purgeFinalStep ((walks (.purge 1 3 .final [] 4) [staff 1]).onTable (fun t => { t with waiting := some (.purge 7 3) }))
        (fun u => u.table.walk == some (.purge 7 3 .first [1] 0) && u.table.waiting == none) := by unfold WalkerTurn; decide

theorem test_forced_revoke : WalkerTurn (walks (.forcedRevoke 1 true false [] 0 false) []) ∧ (walks (.forcedRevoke 1 true false [] 0 false) []).table.waiting = none
    ∧ after .forcedRevokeStart (walks (.forcedRevoke 1 true false [] 0 false) []) (fun u => u.table.walk == none && reply .security u == some [7, 0])
    ∧ after .forcedRevokeStart (walks (.forcedRevoke 1 true false [] 0 false) [staff 1]) (fun u => u.entry 1 == none && u.table.walk == none)
    ∧ after .forcedRevokeStart (walks (.forcedRevoke 1 true false [] 0 false) [{ staff 1 with refs := 1 }, visitor 2])
        (fun u => u.entry 1 == some { staff 1 with refs := 1, inRemoval := true } && u.mail.escortEnds == [.credit 1]
          && u.table.walk == some (.forcedRevoke 1 true true [1, 2] 0 false))
    ∧ after (.forcedRevokeStep 2) (walks (.forcedRevoke 1 true true [1, 2] 0 false) [{ staff 1 with refs := 1, inRemoval := true }, visitor 2])
        (fun u => u.entry 2 == some { visitor 2 with sponsor := none, suspended := true }
          && u.table.walk == some (.forcedRevoke 1 true true [1] 1 false))
    ∧ after (.forcedRevokeStep 1) (walks (.forcedRevoke 1 true true [1] 1 false) [{ staff 1 with inRemoval := true }])
        (fun u => u.table.walk == some (.forcedRevoke 1 true true [] 1 false))
    ∧ after .forcedRevokeEnd (walks (.forcedRevoke 1 true true [] 1 false) [{ staff 1 with inRemoval := true }])
        (fun u => u.entry 1 == none && u.table.walk == none && reply .security u == some [0, 2, 1, 0]) := by unfold WalkerTurn; decide

/-- A sweep step, the amnesty, postings and a claim release (R7, R21 to R23). -/
theorem test_table_events : hasTurn (walks (.sweep [2] 0) [visitor 2]) .walker = true
    ∧ after (.sweepStep 2) (atTime 10 (walks (.sweep [2] 0) [{ visitor 2 with validUntil := some 9 }]))
        (fun u => u.entry 2 == none && u.table.walk == none && u.mail.records.map (fun r => r.2.code) == [.table .swept])
    ∧ after (.sweepStep 2) (atTime 10 (walks (.sweep [1, 2] 4) [staff 1, { visitor 2 with validUntil := some 9 }]))
        (fun u => u.table.walk == some (.sweep [1] 5) && u.mail.records == [])
    ∧ after (.sweepStep 9) ((walks (.sweep [] 0) [staff 1]).onTable (fun t => { t with waiting := some (.forcedRevoke 1 true) }))
        (fun u => u.table.walk == some (.forcedRevoke 1 true false [] 0 false) && u.mail.records == [])
    ∧ after (.sweepStep 2) (atTime 10 (walks (.sweep [2] 0) [{ visitor 2 with validUntil := some 10 }])) (fun u => (u.entry 2).isSome)
    ∧ hasTurn (circle .safety (State.reset.onArbiter (fun a => { a with amnesty := true }))) .safety = true
    ∧ after .amnesty (circle .safety ((holds [{ staff 1 with side := .inside }] .reset).onArbiter (fun a => { a with amnesty := true })))
        (fun u => u.entry 1 == some (staff 1) && u.mail.amnestyDone == 1)
    ∧ after .passagePosting ((holds [{ staff 1 with claim := some (.window ⟨.l0, 3⟩), uses := some 2 }] .reset).onArbiter
          (fun a => { a with first := [.posting ⟨⟨.l0, 3⟩, 1, .entry, .passed⟩] }))
        (fun u => u.entry 1 == some { staff 1 with side := .inside, uses := some 1, last := some ⟨.unset, .l0, .entry⟩ }
          && u.mail.results == [⟨⟨.l0, 3⟩, false, some .staff, 0⟩])
    ∧ after .passagePosting ((holds [{ staff 1 with claim := some (.window ⟨.l0, 3⟩) }] .reset).onArbiter
          (fun a => { a with first := [.posting ⟨⟨.l0, 4⟩, 1, .exit, .unused⟩] })) (fun u => (u.entry 1).map (·.claim) == some (some (.window ⟨.l0, 3⟩)))
    ∧ after .passagePosting ((State.reset.onTable (fun t => { t with departed := [⟨⟨.l0, 4⟩, 1⟩] })).onArbiter
          (fun a => { a with first := [.posting ⟨⟨.l0, 4⟩, 1, .exit, .passed⟩] }))
        (fun u => u.table.departed == [] && u.mail.results == [⟨⟨.l0, 4⟩, true, none, 0⟩])
    ∧ after .escortClaimRelease ((holds [{ staff 1 with claim := some .wait }] .reset).onArbiter (fun a => { a with first := [.claimRelease 1] }))
        (fun u => u.entry 1 == some (staff 1)) := by decide

/-! ## Presentations, verdicts and desk passes -/

/-- The verdict lane 0 gives credential 1 at the outer reader. -/
def verdict (e : Entry) (s : State) : Verdict := lookupVerdict (holds [e] s) .l0 ⟨.entry, 1, .card⟩

/-- The checks of a lookup, each failing alone, and what passes them (R29 to R39). -/
theorem test_verdicts : laneAccepts ready .l0 .entry = true ∧ laneAccepts State.reset .l0 .entry = false
    ∧ (lookupVerdict ready .l0 ⟨.entry, 1, .card⟩ = .deny none .unknownCredential false)
    ∧ (lookupVerdict (lane0 .free [] .reset) .l0 ⟨.entry, 1, .card⟩ = .free)
    ∧ verdict { staff 1 with claim := some (.window ⟨.l1, 0⟩) } ready = .deny (some { staff 1 with claim := some (.window ⟨.l1, 0⟩) }) .inUse false
    ∧ verdict { staff 1 with suspended := true } ready = .deny (some { staff 1 with suspended := true }) .suspended false
    ∧ verdict { staff 1 with media := 2 } ready = .deny (some { staff 1 with media := 2 }) .media false
    ∧ verdict { staff 1 with lanes := 2 } ready = .deny (some { staff 1 with lanes := 2 }) .laneNotPermitted false
    ∧ verdict { staff 1 with validFrom := some 1 } ready = .deny (some { staff 1 with validFrom := some 1 }) .clockUnset false
    ∧ verdict { staff 1 with validFrom := some 1 } (atTime 0 ready) = .deny (some { staff 1 with validFrom := some 1 }) .notYet false
    ∧ verdict { staff 1 with validUntil := some 1 } (atTime 2 ready) = .deny (some { staff 1 with validUntil := some 1 }) .expired false
    ∧ verdict { staff 1 with uses := some 0 } ready = .deny (some { staff 1 with uses := some 0 }) .usedUp false
    ∧ verdict (staff 1) { ready with safety := { SafetyUnit.reset with lockdown := true } } = .deny (some (staff 1)) .lockdown false
    ∧ verdict { staff 1 with side := .inside } ready = .deny (some { staff 1 with side := .inside }) .passback false
    ∧ verdict { staff 1 with side := .inside, passback := .soft } ready = .grant { staff 1 with side := .inside, passback := .soft } true
    ∧ verdict (visitor 1) ready = .await (visitor 1) false
    ∧ verdict (visitor 1) { ready with escort := ⟨[.credit 1 .l0 0], 60⟩ } = .grant (visitor 1) false
    ∧ verdict (visitor 1) { ready with escort := ⟨List.replicate 16 (.credit 9 .l0 0), 60⟩ } = .deny (some (visitor 1)) .escortBusy false
    ∧ lookupVerdict (holds [{ staff 1 with side := .outside }] ready) .l0 ⟨.exit, 1, .card⟩
      = .deny (some { staff 1 with side := .outside }) .passback false
    ∧ verdict { visitor 1 with claim := some .wait } { ready with escort := ⟨[.wait 1 1 .l0 0 .waiting], 60⟩ }
      = .repeatWait { visitor 1 with claim := some .wait } := by decide

/-- A validity period in force and one with both bounds past, a WAIT claim without its record, a sponsor in removal, and a
list of sixteen that holds the visitor's own WAIT (R33 to R35, R39). -/
theorem test_verdicts_more :
    verdict { staff 1 with validFrom := some 2, validUntil := some 2 } (atTime 2 ready)
      = .grant { staff 1 with validFrom := some 2, validUntil := some 2 } false
    ∧ verdict { staff 1 with validFrom := some 1, validUntil := some 2 } (atTime 3 ready)
      = .deny (some { staff 1 with validFrom := some 1, validUntil := some 2 }) .expired false
    ∧ verdict { visitor 1 with claim := some .wait } ready = .deny (some { visitor 1 with claim := some .wait }) .inUse false
    ∧ lookupVerdict (holds [{ visitor 1 with sponsor := some 9 }, { staff 9 with inRemoval := true }] ready) .l0 ⟨.entry, 1, .card⟩
      = .deny (some { visitor 1 with sponsor := some 9 }) .suspended false
    ∧ verdict (visitor 1) { ready with escort := ⟨.wait 1 1 .l0 0 .waiting :: List.replicate 15 (.credit 9 .l0 0), 60⟩ }
      = .await (visitor 1) false := by decide

/-- A decision begun: the presentation of credential 1 waits for its lookup. -/
def deciding (s : State) : State :=
  (s.onLane .l0 (fun u => { u with decision := some ⟨.entry, 1, .card⟩ })).onArbiter (fun a => { a with second := [.lookup .l0] })

/-- A lookup that grants, with its CALL posted or lost, one that waits for the sponsor, and one that denies (R41, R101). -/
theorem test_lookup : (holds [staff 1] ready).entry 1 = some (staff 1) ∧ (ready.lane .l0).state.inService = true
    ∧ (deciding (holds [staff 1] ready)).arbiter.first = [] ∧ (deciding (holds [staff 1] ready)).arbiter.second = [.lookup .l0]
    ∧ ((deciding (holds [staff 1] ready)).lane .l0).decision = some ⟨.entry, 1, .card⟩
    ∧ after .presentationLookup (deciding (holds [staff 1] ready))
        (fun u => (u.lane .l0).windows.map (·.tag) == [⟨.l0, 0⟩] && (u.lane .l0).nextSerial == 1 && (u.lane .l0).decision == none
          && (u.lane .l0).state == .serving && u.mail.records.length == 1)
    ∧ after .presentationLookup (deciding (holds [{ staff 1 with floor := some 3 }] { ready with dispatch := ⟨[], 0, true, true, 3⟩ }))
        (fun u => (u.lane .l0).windows.map (·.state) == [.assigning] && u.dispatch.queue == [.call ⟨.l0, 0⟩ 1 3 .unset])
    ∧ after .presentationLookup (deciding (holds [{ staff 1 with floor := some 3 }]
          { ready with dispatch := ⟨List.replicate 32 (.cancel ⟨.l1, 0⟩), 0, true, true, 3⟩ }))
        (fun u => (u.lane .l0).windows.map (·.call) == [.notPosted] && u.dispatch.loss == 1)
    ∧ after .presentationLookup (deciding (holds [visitor 1] ready))
        (fun u => u.escort.list == [.wait 1 1 .l0 0 .waiting] && (u.entry 1).map (·.claim) == some (some .wait))
    ∧ after .presentationLookup (deciding ready) (fun u => (u.lane .l0).counters.denial == 1)
    ∧ after .presentationLookup (deciding (lane0 .masked [] .reset)) (fun u => (u.lane .l0).counters.denial == 0) := by decide

/-- A WAIT that the table ended, with its message still to come, ends before the visitor's next one joins the list; and a
record still present when a release fails test 2 returns to RELEASE_PENDING at its own lane (R39, R82, R87, R90). -/
theorem test_stale_wait :
    after .presentationLookup (deciding (holds [visitor 1] { ready with
        escort := ⟨[.wait 1 9 .l1 0 .releasePending], 60⟩, mail := { Mail.reset with escortEnds := [.credit 1, .wait 1] } }))
      (fun u => u.escort.list == [.wait 1 1 .l0 0 .waiting] && u.mail.escortEnds == [.credit 1]
        && u.mail.records.map (fun r => r.2.code) == [.verdict .awaitSponsor, .escort .withdrawn])
    ∧ after .escortRelease ((holds [visitor 2] { ready with escort := ⟨[.wait 2 1 .l1 0 .waiting], 60⟩ }).onArbiter
          (fun a => { a with second := [.release 2 .l0] })) (fun u => u.escort.list == [.wait 2 1 .l1 0 .releasePending]) := by decide

/-- DESK_PASS: a field out of range, a lane not in service, a mode that does not enable the direction, a place, a
reservation and a lane that has one (R45, R46). -/
theorem test_desk_pass : Asked .reception (.deskPass 1 0 0) (asks .reception (.deskPass 1 0 0) ready)
    ∧ after (.deskPass .reception) (asks .reception (.deskPass 1 8 0) ready) (fun u => reply .reception u == some [6, 0])
    ∧ after (.deskPass .reception) (asks .reception (.deskPass 1 7 2) ready) (fun u => reply .reception u == some [6, 0])
    ∧ after (.deskPass .reception) (asks .reception (.deskPass 1 1 0) ready) (fun u => reply .reception u == some [14, 1, 1])
    ∧ after (.deskPass .reception) (asks .reception (.deskPass 1 0 0) { ready with bank := ⟨.closed, 0, true⟩ })
        (fun u => reply .reception u == some [20, 1, 0] && u.mail.records.length == 1)
    ∧ after (.deskPass .reception) (asks .reception (.deskPass 1 0 0) ready) (fun u => u.arbiter.desk.reception == some ⟨1, .l0, .entry, false⟩)
    ∧ after (.deskPass .reception) (asks .reception (.deskPass 1 0 0) (lane0 .serving [window 0 .entry .opened, window 1 .entry .queued] .reset))
        (fun u => (u.lane .l0).reservation == some ⟨.reception, 1, .entry, 0⟩ && reply .reception u == none)
    ∧ after (.deskPass .reception) (asks .reception (.deskPass 1 0 0)
          ((lane0 .serving [window 0 .entry .opened, window 1 .entry .queued] .reset).onLane .l0
            (fun u => { u with reservation := some ⟨.security, 2, .exit, 0⟩ }))) (fun u => reply .reception u == some [15, 0]) := by
  unfold Asked; decide

theorem test_desk_lookup :
    portTurn (circle .reception (ready.onArbiter (fun a => { a with desk := a.desk.set .reception (some ⟨1, .l0, .entry, false⟩) }))) .reception = true
    ∧ after (.deskPassLookup .reception) (circle .reception ((holds [staff 1] ready).onArbiter
          (fun a => { a with desk := a.desk.set .reception (some ⟨1, .l0, .entry, false⟩) })))
        (fun u => reply .reception u == some [0, 3, 0, 0, 0] && (u.lane .l0).windows.length == 1 && u.arbiter.desk.reception == none)
    ∧ after (.deskPassLookup .reception) (circle .reception (ready.onArbiter
          (fun a => { a with desk := a.desk.set .reception (some ⟨1, .l0, .entry, false⟩) })))
        (fun u => reply .reception u == some [20, 1, 1] && (u.lane .l0).windows.length == 0)
    ∧ after (.deskPassLookup .reception) (circle .reception (State.reset.onArbiter
          (fun a => { a with desk := a.desk.set .reception (some ⟨1, .l0, .entry, false⟩) })))
        (fun u => reply .reception u == some [14, 1, 1])
    ∧ after (.deskPassLookup .reception) (circle .reception ((lane0 .masked [] .reset).onArbiter
          (fun a => { a with desk := a.desk.set .reception (some ⟨1, .l0, .entry, true⟩) })))
        (fun u => reply .reception u == some [14, 1, 0] && u.mail.records == [])
    ∧ after (.reservationHoldExpiry .l0) ((ready.onLane .l0 (fun u => { u with reservation := some ⟨.security, 2, .exit, 0⟩ })))
        (fun u => (u.lane .l0).reservation.isSome)
    ∧ after (.reservationHoldExpiry .l0) ({ ready with time := 30000 }.onLane .l0 (fun u => { u with reservation := some ⟨.security, 2, .exit, 0⟩ }))
        (fun u => (u.lane .l0).reservation == none && reply .security u == some [18, 0])
    ∧ after (.reservationHoldExpiry .l0) ready (fun u => u == ready) := by decide

/-! ## Lane requests -/

theorem test_no_such_lane : Asked .security (.isolateLane 8) (asks .security (.isolateLane 8) ready)
    ∧ ([(.setLane .security, .setLane 8 ⟨none, none, none, none, none, none, none, none⟩), (.isolateLane .security, .isolateLane 8),
        (.resumeLane .security, .resumeLane 8), (.restartLane .security, .restartLane 8), (.alarmReset .security, .alarmReset 8),
        (.readLaneCounters .security, .readLaneCounters 8), (.laneStatus .security, .laneStatus 255)]
        : List (Instr × Request)).all (fun x => after x.1 (asks .security x.2 ready) (fun u => reply .security u == some [6, 0])) := by
  unfold Asked; decide

/-- SET_LANE and SET_BANK_MODE (R51, R52): out of range, a mode that withdraws a window, and a lane of its own mode. -/
theorem test_modes : Asked .security (.setBankMode 3) (asks .security (.setBankMode 3) ready)
    ∧ after (.setLane .security) (asks .security (.setLane 0 ⟨none, none, some 31, none, none, none, none, none⟩) ready)
        (fun u => reply .security u == some [6, 0] && u.lanes == ready.lanes)
    ∧ after (.setLane .security) (asks .security (.setLane 0 ⟨some 2, some 1, some 30, some 4, some 10, some 1, some 4, some 1⟩)
          (lane0 .serving [window 0 .entry .queued] .reset))
        (fun u => (u.lane .l0).settings == ⟨.exitOnly, .own, 30, 4, 10, true, 4, 1⟩
          && u.arbiter.first == [.posting ⟨⟨.l0, 0⟩, 1, .entry, .withdrawn⟩])
    ∧ after (.setBankMode .security) (asks .security (.setBankMode 4) ready) (fun u => reply .security u == some [6, 0])
    ∧ after (.setBankMode .security) (asks .security (.setBankMode 3) (lane0 .serving [window 0 .exit .opened] .reset))
        (fun u => u.bank.mode == .closed && u.arbiter.first == [.posting ⟨⟨.l0, 0⟩, 1, .exit, .withdrawn⟩]
          && (u.lane .l0).windows.map (fun w => (w.state, w.outcome)) == [(.closing, some .withdrawn)])
    ∧ after (.setBankMode .security) (asks .security (.setBankMode 3) (lane0 .serving [window 0 .entry .opened, window 1 .exit .queued] .reset))
        (fun u => u.arbiter.first.length == 2 && (u.lane .l0).windows.map (·.state) == [.closing, .closing])
    ∧ after (.setBankMode .security) (asks .security (.setBankMode 3) ((lane0 .serving [window 0 .exit .opened] .reset).onLane .l0
          (fun u => { u with settings := { u.settings with source := .own } }))) (fun u => u.arbiter.first == []) := by
  unfold Asked; decide

/-- Masking, isolation, resumption and restart (R53, R77, R78, R158). -/
theorem test_lanes_out : Asked .security (.setLaneMask 1) (asks .security (.setLaneMask 1) ready)
    ∧ after (.setLaneMask .security) (asks .security (.setLaneMask 1) (lane0 .serving [window 0 .exit .opened] .reset))
        (fun u => (u.lane .l0).state == .masked && (u.line .l0).drive == SlotRec.off && u.lane .l1 == LaneUnit.reset
          && u.arbiter.first == [.posting ⟨⟨.l0, 0⟩, 1, .exit, .aborted⟩])
    ∧ after (.setLaneMask .security) (asks .security (.setLaneMask 0) { lane0 .masked [] .reset with bank := ⟨.secured, 1, true⟩ })
        (fun u => (u.lane .l0).state == .enumerating && (u.line .l0).drive == SlotRec.reset)
    ∧ after (.isolateLane .security) (asks .security (.isolateLane 0) (lane0 .masked [] .reset)) (fun u => reply .security u == some [14, 0])
    ∧ after (.isolateLane .security) (asks .security (.isolateLane 0) (lane0 .alarm [window 0 .exit .transit] .reset))
        (fun u => (u.lane .l0).state == .isolated && u.arbiter.first == [.posting ⟨⟨.l0, 0⟩, 1, .exit, .aborted⟩])
    ∧ after (.resumeLane .security) (asks .security (.resumeLane 0) ready) (fun u => reply .security u == some [14, 0])
    ∧ after (.resumeLane .security) (asks .security (.resumeLane 0) (lane0 .isolated [] .reset))
        (fun u => (u.lane .l0).state == .enumerating && (u.line .l0).outer == SlotRec.reset)
    ∧ after (.restartLane .security) (asks .security (.restartLane 0) (lane0 .isolated [] .reset)) (fun u => reply .security u == some [14, 0])
    ∧ after (.restartLane .security) (asks .security (.restartLane 0) (lane0 .serving [window 0 .exit .opened] .reset))
        (fun u => (u.lane .l0).state == .enumerating && (u.line .l0).inner == SlotRec.reset
          && u.arbiter.first == [.posting ⟨⟨.l0, 0⟩, 1, .exit, .aborted⟩]) := by unfold Asked; decide

theorem test_lane_requests : Lane.num .l0 = (0 : Byte).toNat ∧ Asked .security (.alarmReset 0) (asks .security (.alarmReset 0) ready)
    ∧ after (.alarmReset .security) (asks .security (.alarmReset 0) ready) (fun u => reply .security u == some [14, 0])
    ∧ after (.alarmReset .security) (asks .security (.alarmReset 0) (lane0 .alarm [window 0 .exit .closing] .reset))
        (fun u => reply .security u == some [16, 0])
    ∧ after (.alarmReset .security) (asks .security (.alarmReset 0) (lane0 .alarm [] .reset))
        (fun u => (u.lane .l0).acknowledged && (u.lane .l0).state == .alarm)
    ∧ after (.alarmReset .security) (asks .security (.alarmReset 0) ((lane0 .alarm [] .reset).onLane .l0 (fun u => { u with awaitingReset := true })))
        (fun u => (u.lane .l0).state == .ready)
    ∧ after (.readLaneCounters .security) (asks .security (.readLaneCounters 0) (ready.onLane .l0 (fun u => { u with counters := ⟨1, 2, 3, 4, 5, 255⟩ })))
        (fun u => (u.lane .l0).counters == Counters.reset && reply .security u == some [0, 6, 1, 2, 3, 4, 5, 255])
    ∧ after (.laneStatus .dispatch) (asks .dispatch (.laneStatus 0) (lane0 .masked [] .reset)) (fun u => reply .dispatch u == some [0, 1, 0])
    ∧ after (.laneStatus .dispatch) (asks .dispatch (.laneStatus 0) ready) (fun u => reply .dispatch u == some (replyBytes .ok (laneBody ready .l0))) := by
  unfold Asked; decide

/-! ## Escort unit -/

theorem test_escort_requests : Asked .security (.setEscort 10) (asks .security (.setEscort 10) .reset)
    ∧ after (.setEscort .security) (asks .security (.setEscort 9) .reset) (fun u => reply .security u == some [6, 0])
    ∧ after (.setEscort .security) (asks .security (.setEscort 601) .reset) (fun u => reply .security u == some [6, 0])
    ∧ after (.setEscort .security) (asks .security (.setEscort 10)
          { State.reset with time := 10000, escort := ⟨[.credit 1 .l0 0, .wait 2 1 .l0 0 .releasing, .credit 3 .l0 1], 60⟩ })
        (fun u => u.escort == ⟨[.wait 2 1 .l0 0 .releasing, .credit 3 .l0 1], 10⟩)
    ∧ after (.setEscort .security) (asks .security (.setEscort 10)
          { State.reset with time := 10000, escort := ⟨[.wait 2 1 .l0 0 .waiting, .wait 4 1 .l1 1 .releasePending], 60⟩ })
        (fun u => u.escort.list == [.wait 4 1 .l1 1 .releasePending] && u.arbiter.first == [.claimRelease 2]
          && u.mail.records.map (fun r => r.2.code) == [.escort .escortTimeout])
    ∧ after (.escortStatus .reception) (asks .reception (.escortStatus 16) .reset) (fun u => reply .reception u == some [6, 0])
    ∧ after (.escortStatus .reception) (asks .reception (.escortStatus 15) .reset) (fun u => reply .reception u == some [0, 4, 0, 60, 0, 0]) := by
  unfold Asked; decide

/-- The credit of a sponsor passage: made at the 16th place, not made on a full list and recorded so, and renewed at the end
of a full list; in EGRESS, before the list is cleared, the last two are the same and none is made (R84, R92, log entry 38). -/
theorem test_sponsor_credit :
    let passage (n : Nat) (has : Bool) (st : EgressState) : State :=
      { State.reset with time := 7, safety := { SafetyUnit.reset with egress := st }
                         escort := ⟨(if has then [.credit 1 .l3 2] else []) ++ List.replicate n (.wait 2 9 .l0 0 .releasing), 60⟩
                         mail := { Mail.reset with sponsors := [⟨.l0, 1, .staff, .entry, false, 1⟩] } }
    after (.sponsorPassage .l0) (passage 15 false .normal) (fun u => u.escort.list.getLast? == some (.credit 1 .l0 7)
        && u.escort.list.length == 16 && u.mail.records.map (fun r => (r.2.code, r.2.detail)) == [(.escort .creditMade, .none)])
    ∧ (∀ st ∈ [EgressState.normal, .egress],
        after (.sponsorPassage .l0) (passage 16 false st) (fun u => !u.hasCredit 1
          && u.mail.records.map (fun r => (r.2.code, r.2.detail)) == [(.escort .creditMade, .items { listFull := true } [])])
        ∧ after (.sponsorPassage .l0) (passage 15 true st) (fun u => u.escort.list.getLast? == some (.credit 1 .l0 7)
          && u.escort.list.length == 16 && u.mail.records.map (fun r => r.2.code) == [.escort .creditRenewed]))
    ∧ after (.sponsorPassage .l0) (passage 15 false .egress) (fun u => !u.hasCredit 1 && u.mail.records.isEmpty) := by
  decide +kernel

/-- The records of the list in time (R83 to R85, R91, R92). -/
theorem test_escort_events :
    after (.escortWaitExpiry 2) { State.reset with time := 60000, escort := ⟨[.wait 2 1 .l0 0 .waiting], 60⟩ }
        (fun u => u.escort.list == [] && u.arbiter.first == [.claimRelease 2])
    ∧ after (.escortWaitExpiry 2) { State.reset with time := 59999, escort := ⟨[.wait 2 1 .l0 0 .waiting], 60⟩ } (fun u => u.escort.list.length == 1)
    ∧ after (.escortWaitExpiry 2) { State.reset with time := 60000, escort := ⟨[.wait 2 1 .l0 0 .releasing], 60⟩ } (fun u => u.escort.list.length == 1)
    ∧ after (.escortWaitExpiry 2) .reset (fun u => u == State.reset)
    ∧ after (.creditExpiry 1) { State.reset with time := 60000, escort := ⟨[.credit 1 .l0 0], 60⟩ } (fun u => u.escort.list == [])
    ∧ after (.creditExpiry 1) { State.reset with time := 59999, escort := ⟨[.credit 1 .l0 0], 60⟩ } (fun u => u.escort.list.length == 1)
    ∧ after (.sponsorPassage .l0) { State.reset with escort := ⟨[.wait 2 1 .l0 0 .waiting], 60⟩
                                                     mail := { Mail.reset with sponsors := [⟨.l0, 1, .staff, .entry, false, 1⟩] } }
        (fun u => u.escort.list == [.wait 2 1 .l0 0 .releasePending, .credit 1 .l0 0] && u.mail.releases == [(.l0, 2)])
    ∧ after (.sponsorPassage .l0) { State.reset with escort := ⟨[.wait 2 1 .l0 0 .waiting], 60⟩
                                                     safety := { SafetyUnit.reset with egress := .egress }
                                                     mail := { Mail.reset with sponsors := [⟨.l0, 1, .staff, .entry, false, 1⟩] } }
        (fun u => u.escort.list == [.wait 2 1 .l0 0 .releasePending]
          && u.mail.records.map (fun r => r.2.code) == [.escort .releasePending])
    ∧ after (.sponsorPassage .l1) { ready with escort := ⟨[.wait 2 1 .l0 0 .waiting, .wait 3 1 .l0 0 .waiting], 60⟩
                                               mail := { Mail.reset with sponsors := [⟨.l1, 1, .staff, .entry, false, 2⟩] } }
        (fun u => (u.lane .l0).outer.shown == some .wait && (u.lane .l0).outer.waiting == none
          && (u.line .l0).showOuter == some .wait)
    ∧ after (.sponsorPassage .l1) ({ ready with escort := ⟨[.wait 2 1 .l0 0 .waiting], 60⟩
                                                mail := { Mail.reset with sponsors := [⟨.l1, 1, .staff, .entry, false, 2⟩] } }.onLane
          .l0 (fun u => { u with outer := { u.outer with shown := some .blank, holdDue := some 600 } }))
        (fun u => (u.lane .l0).outer.shown == some .blank && (u.lane .l0).outer.waiting == some .wait)
    ∧ after (.sponsorPassage .l0) { State.reset with mail := { Mail.reset with sponsors := [⟨.l0, 1, .staff, .exit, false, 1⟩] } }
        (fun u => u.escort == EscortUnit.reset && u.mail.sponsors == [])
    ∧ after (.laneReleaseNotice .l0) { ready with escort := ⟨[.wait 2 1 .l0 0 .releasePending], 60⟩
                                                  mail := { Mail.reset with releases := [(.l1, 3), (.l0, 2)] } }
        (fun u => u.mail.releases == [(.l1, 3)] && u.arbiter.second == [.release 2 .l0])
    ∧ after .escortLockdown { State.reset with escort := ⟨[.wait 2 1 .l0 0 .waiting, .credit 1 .l0 0], 60⟩
                                               mail := { Mail.reset with escortLockdowns := 1 } }
        (fun u => u.escort.list == [] && u.arbiter.first == [.claimRelease 2] && u.mail.escortLockdowns == 0)
    ∧ after .escortEgressClear { State.reset with escort := ⟨[.wait 2 1 .l0 0 .waiting, .credit 1 .l0 0], 60⟩
                                                  mail := { Mail.reset with escortClears := 1 } }
        (fun u => u.escort.list == [] && u.arbiter.first == [.claimRelease 2] && u.mail.escortClears == 0) := by decide +kernel

/-- A WAIT in RELEASING at lane 0 with its release in the second class. -/
def releasing (e : Entry) (s : State) : State :=
  (holds [staff 9, e] { s with escort := ⟨[.wait 2 9 .l0 0 .releasing], 60⟩ }).onArbiter (fun a => { a with second := [.release 2 .l0] })

theorem test_escort_ends :
    after .escortEndMessage { State.reset with escort := ⟨[.wait 2 1 .l0 0 .waiting], 60⟩, mail := { Mail.reset with escortEnds := [.wait 2] } }
        (fun u => u.escort.list == [] && u.mail.escortEnds == [])
    ∧ after .escortEndMessage { State.reset with mail := { Mail.reset with escortEnds := [.wait 2] } } (fun u => u.mail.records == [])
    ∧ after .escortEndMessage { State.reset with escort := ⟨[.credit 1 .l0 0], 60⟩, mail := { Mail.reset with escortEnds := [.credit 1] } }
        (fun u => u.escort.list == [] && u.mail.records.length == 1)
    ∧ laneTakesRelease (releasing { visitor 2 with claim := some .wait } ready) .l0 = true
    ∧ releasingAt (releasing { visitor 2 with claim := some .wait } ready) .l0 2 = true
    ∧ after .escortRelease (releasing { visitor 2 with claim := some .wait } ready)
        (fun u => (u.lane .l0).windows.length == 1 && u.escort.list == [] && (u.entry 2).map (·.claim) == some (some (.window ⟨.l0, 0⟩)))
    ∧ after .escortRelease (releasing (visitor 2) ready) (fun u => (u.lane .l0).windows.length == 0 && u.escort.list == [])
    ∧ after .escortRelease (releasing { visitor 2 with claim := some .wait } (lane0 .alarm [] .reset))
        (fun u => (u.lane .l0).windows.length == 0 && (u.entry 2).map (·.claim) == some (some .wait))
    ∧ after .escortRelease (releasing { visitor 2 with claim := some .wait } { ready with bank := ⟨.closed, 0, true⟩ })
        (fun u => u.escort.list == [.wait 2 9 .l0 0 .releasePending] && (u.lane .l0).outer.shown == some .wait) := by decide

/-! ## Dispatch unit -/

/-- Lane 0 serving a window whose call stands so. -/
def called (c : CallState) : State := lane0 .serving [{ window 0 .entry .opened with call := c, floor := some 3, callDue := some 3000 }] .reset

theorem test_calls : Asked .dispatch .takeCalls (asks .dispatch .takeCalls .reset)
    ∧ after (.takeCalls .dispatch) (asks .dispatch .takeCalls { called .posted with dispatch := ⟨[.call ⟨.l0, 0⟩ 1 3 .unset], 0, true, false, 3⟩ })
        (fun u => u.dispatch.queue == [] && (u.lane .l0).windows.map (·.call) == [.taken]
          && reply .dispatch u == some [0, 14, 0, 0, 0, 0, 0, 0, 0, 1, 3, 1, 0, 0, 0, 0])
    ∧ after (.assign .dispatch) (asks .dispatch (.assign 8 0 1) .reset) (fun u => reply .dispatch u == some [6, 0])
    ∧ after (.assign .dispatch) (asks .dispatch (.assign 0 0 32) .reset) (fun u => reply .dispatch u == some [6, 0])
    ∧ after (.assign .dispatch) (asks .dispatch (.assign 0 0 31) .reset) (fun u => reply .dispatch u == some [17, 0] && u.mail.records.length == 1)
    ∧ after (.assign .dispatch) (asks .dispatch (.assign 0 0 31) (called .taken))
        (fun u => (u.lane .l0).windows.map (fun w => (w.call, w.car)) == [(.answered, some 31)] && u.mail.indications == [(⟨.l0, 0⟩, .car 31)])
    ∧ after (.decline .dispatch) (asks .dispatch (.decline 8 0) .reset) (fun u => reply .dispatch u == some [6, 0])
    ∧ after (.decline .dispatch) (asks .dispatch (.decline 0 0) .reset) (fun u => reply .dispatch u == some [17, 0])
    ∧ after (.decline .dispatch) (asks .dispatch (.decline 0 0) (called .timedOut))
        (fun u => (u.lane .l0).windows.map (·.call) == [.declined] && reply .dispatch u == some [0, 0]) := by unfold Asked; decide

theorem test_dispatch_events : Asked .security (.setDispatch none none (some 10)) (asks .security (.setDispatch none none (some 10)) .reset)
    ∧ after (.setDispatch .security) (asks .security (.setDispatch none none (some 11)) .reset) (fun u => reply .security u == some [6, 0])
    ∧ after (.setDispatch .security) (asks .security (.setDispatch (some 1) (some 1) (some 10)) .reset)
        (fun u => u.dispatch == ⟨[], 0, true, true, 10⟩ && u.mail.holds.length == 8)
    ∧ after (.dispatchStatus .dispatch) (asks .dispatch .dispatchStatus { State.reset with dispatch := ⟨[], 7, false, false, 3⟩ })
        (fun u => u.dispatch.loss == 0)
    ∧ after (.callTimerExpiry ⟨.l0, 0⟩) { called .posted with time := 2999 } (fun u => (u.lane .l0).windows.map (·.call) == [.posted])
    ∧ after (.callTimerExpiry ⟨.l0, 0⟩) { called .posted with time := 3000, dispatch := ⟨[.call ⟨.l0, 0⟩ 1 3 .unset], 0, true, false, 3⟩ }
        (fun u => (u.lane .l0).windows.map (·.call) == [.expired] && u.dispatch.queue == [] && u.mail.indications == [(⟨.l0, 0⟩, .seePanel)])
    ∧ after (.callTimerExpiry ⟨.l0, 0⟩) { called .taken with time := 3000 } (fun u => (u.lane .l0).windows.map (·.call) == [.timedOut])
    ∧ after (.dispatchIndication .l0) { called .answered with mail := { Mail.reset with indications := [(⟨.l0, 0⟩, .car 3)] } }
        (fun u => u.mail.indications == [] && (u.lane .l0).outer.shown == some (.car 3))
    ∧ after (.dispatchIndication .l0) { ready with mail := { Mail.reset with indications := [(⟨.l0, 0⟩, .car 3)] } }
        (fun u => u.mail.indications == [] && (u.lane .l0).outer.shown == none)
    ∧ after (.holdForCarReport .l0) { lane0 .serving [{ window 0 .entry .assigning with call := .taken }] .reset with
          mail := { Mail.reset with holds := [(.l0, false)] } }
        (fun u => u.mail.holds == [] && (u.lane .l0).windows.map (·.state) == [.opened]) := by unfold Asked; decide

/-! ## Bank safety unit -/

/-- The input at its debounce, an egress call, and the two ends of a release (R126, R127, R131). -/
theorem test_egress_input :
    after (.egressReqChange true) .reset (fun u => u.safety.debounceDue == some 50 && u.pins.egressReq)
    ∧ after (.egressReqChange true) (held .reset) (fun u => u.safety.debounceDue == none && u.pins.egressReq)
    ∧ after (.egressReqChange false) { State.reset with safety := { SafetyUnit.reset with debounceDue := some 50 } } (fun u => u.safety.debounceDue == none)
    ∧ after .egressDebounceExpiry { State.reset with time := 49, safety := { SafetyUnit.reset with debounceDue := some 50 } } (fun u => u.safety.debounceDue == some 50)
    ∧ after .egressDebounceExpiry { State.reset with time := 50, pins := ⟨0, true, []⟩, safety := { SafetyUnit.reset with debounceDue := some 50 } }
        (fun u => u.safety.called && u.safety.overtake && u.mail.overtakes == Lane.all)
    ∧ after .egressDebounceExpiry { State.reset with time := 50, safety := ⟨true, some 50, .egress, true, false, false, false, false, false⟩ }
        (fun u => u.safety.releaseWaiting && u.safety.egress == .egress)
    ∧ after .egressDebounceExpiry { State.reset with time := 50, safety := ⟨true, some 50, .normal, false, false, false, false, false, false⟩ }
        (fun u => u.safety == SafetyUnit.reset)
    ∧ after .egressDebounceExpiry { lane0 .free [] .reset with time := 50, safety := ⟨true, some 50, .egress, false, false, false, false, false, false⟩ }
        (fun u => u.safety.egress == .restoring && u.safety.restorePermitted && (u.lane .l0).restoring) := by decide

/-- Orders, reports and the end of a restore (R125, R128, R129, R133 to R135). -/
theorem test_safety_events :
    after (.overtakeOrder .l0) (lane0 .serving [window 0 .exit .opened] { State.reset with mail := { Mail.reset with overtakes := [.l0, .l1] } })
        (fun u => (u.lane .l0).state == .free && u.mail.overtakes == [.l1] && u.arbiter.first == [.posting ⟨⟨.l0, 0⟩, 1, .exit, .overtaken⟩])
    ∧ after (.overtakeOrder .l1) { State.reset with mail := { Mail.reset with overtakes := [.l1] } } (fun u => (u.lane .l1).state == .enumerating)
    ∧ after (.overtakeOrder .l0) .reset (fun u => u == State.reset)
    ∧ after (.lockdownOrder .l0) (lane0 .serving [window 0 .entry .opened, window 1 .exit .queued] { State.reset with mail := { Mail.reset with lockdowns := [.l0] } })
        (fun u => u.arbiter.first == [.posting ⟨⟨.l0, 0⟩, 1, .entry, .withdrawn⟩])
    ∧ after (.laneStateReport .l0) { State.reset with safety := ⟨true, none, .normal, true, false, false, false, false, false⟩
                                                      mail := { Mail.reset with reports := [(.l0, .orderTaken)] } }
        (fun u => u.safety.egress == .egress && !u.safety.overtake && u.mail.escortClears == 1)
    ∧ after (.laneStateReport .l0) { State.reset with safety := ⟨true, none, .normal, true, false, false, false, false, false⟩
                                                      mail := { Mail.reset with reports := [(.l0, .orderTaken)], overtakes := [.l1] } }
        (fun u => u.safety.egress == .normal && u.safety.overtake)
    ∧ after (.laneStateReport .l0) { State.reset with safety := ⟨true, none, .normal, true, false, false, false, false, false⟩
                                                      mail := { Mail.reset with reports := [(.l0, .orderTaken), (.l1, .orderTaken)] } }
        (fun u => u.safety.egress == .normal && u.safety.overtake)
    ∧ after (.laneStateReport .l0) { State.reset with mail := { Mail.reset with reports := [(.l0, .listEmpty)] } } (fun u => u == State.reset)
    ∧ after .amnestyDone { State.reset with safety := ⟨false, none, .restoring, false, false, true, false, false, true⟩
                                            mail := { Mail.reset with amnestyDone := 1 } }
        (fun u => u.safety.egress == .normal && u.mail.amnestyDone == 0)
    ∧ after (.freeRestoreClearExpiry .l0) ((lane0 .free [] { State.reset with time := 2000 }).onLane .l0
          (fun u => { u with restoring := true, clearDue := some 2000 })) (fun u => (u.lane .l0).state == .ready)
    ∧ after (.freeRestoreClearExpiry .l0) ((lane0 .free [] { State.reset with time := 1999 }).onLane .l0
          (fun u => { u with restoring := true, clearDue := some 2000 })) (fun u => (u.lane .l0).state == .free) := by decide

/-- No lane has a window or a moving state at reset: the last lane's order makes the bank EGRESS (R129). -/
theorem test_all_lanes_out : ∀ m, (State.reset.lane m).windows = [] ∧ (State.reset.lane m).state ≠ .ready
    ∧ (State.reset.lane m).state ≠ .serving ∧ (State.reset.lane m).state ≠ .alarm := by
  intro m; cases m <;> decide

theorem test_safety_requests : Asked .security .restore (asks .security .restore .reset)
    ∧ after (.restore .security) (asks .security .restore .reset) (fun u => reply .security u == some [0, 2, 0, 0])
    ∧ after (.restore .security) (asks .security .restore { lane0 .free [] .reset with safety := ⟨false, none, .restoring, false, false, false, true, false, false⟩ })
        (fun u => u.safety.restorePermitted && (u.lane .l0).restoring && reply .security u == some [0, 1, 1])
    ∧ after (.setEgress .security) (asks .security (.setEgress 1) .reset) (fun u => u.safety.needsRequest)
    ∧ after (.setEgress .security) (asks .security (.setEgress 0) .reset) (fun u => !u.safety.needsRequest)
    ∧ after (.setEgress .security) (asks .security (.setEgress 2) .reset) (fun u => reply .security u == some [6, 0])
    ∧ after (.lockdown .security) (asks .security (.lockdown 2) .reset) (fun u => reply .security u == some [6, 0])
    ∧ after (.lockdown .security) (asks .security (.lockdown 0) .reset) (fun u => u.mail.records == [])
    ∧ after (.lockdown .security) (asks .security (.lockdown 1) .reset) (fun u => u.safety.lockdown && u.mail.escortLockdowns == 1)
    ∧ after (.lockdown .security) (asks .security (.lockdown 0) { State.reset with safety := { SafetyUnit.reset with lockdown := true } })
        (fun u => !u.safety.lockdown && u.mail.records.length == 1)
    ∧ after (.safetyStatus .security) (asks .security .safetyStatus .reset) (fun u => reply .security u == some (replyBytes .ok (safetyBody .reset))) := by
  unfold Asked; decide

/-! ## Lane lines -/

/-- Lane 0's line awaits the reply to this frame, sent at 0. -/
def awaits (x : Slot) (k : SentKind) (s : State) : State := s.onLine .l0 (fun u => { u with await := some ⟨x, k, 0, false⟩ })

/-- Lane 0's line awaits the reply to a frame of a round that a RESTART_LANE ended. -/
def awaitsVoid (x : Slot) (k : SentKind) (s : State) : State := s.onLine .l0 (fun u => { u with await := some ⟨x, k, 0, true⟩ })

/-- A reply that is well formed but for what its kind and data say. -/
def raw (x : Slot) (kind : Nat) (data : List Byte) : RawReply :=
  ⟨500, 13, 115200, true, (0xAA :: checkedBytes x kind data).map (fun b => ⟨0, b⟩)⟩

/-- Cycles: not yet, masked, while a reply is awaited, with a command and two SHOWs, and with queries (R144 to R146, R150). -/
theorem test_lane_cycle :
    after (.laneCycle .l0 0) (ready.onLine .l0 (fun u => { u with nextCycle := 1 })) (fun u => (u.line .l0).frames == [])
    ∧ after (.laneCycle .l0 0) (lane0 .masked [] .reset) (fun u => (u.line .l0).frames == [])
    ∧ after (.laneCycle .l0 0) (awaits .drive .poll ready) (fun u => (u.line .l0).frames == [])
    ∧ after (.laneCycle .l0 0) (ready.onLine .l0 (fun u => { u with pendingCmd := some .close, showOuter := some .go, showInner := some .wait }))
        (fun u => (u.line .l0).frames == [leafFrame .close, showFrame .outer .go, showFrame .inner .wait, slotFrame .drive .poll]
          && (u.line .l0).await == some ⟨.drive, .poll, 0, false⟩ && (u.line .l0).nextCycle == 20
          && (u.line .l0).pendingCmd == some .close && (u.line .l0).showOuter == none)
    ∧ after (.laneCycle .l0 0) State.reset (fun u => (u.line .l0).frames == [slotFrame .drive .query] && (u.line .l0).drive.tries == 1)
    ∧ after (.laneCycle .l0 0) (ready.onLine .l0 (fun u => { u with drive := { SlotRec.reset with status := .jabber } }))
        (fun u => (u.line .l0).await == some ⟨.outer, .poll, 0, false⟩)
    ∧ after (.laneCycle .l0 0) (ready.onLine .l0 (fun u => { u with drive := SlotRec.off, outer := SlotRec.off }))
        (fun u => (u.line .l0).await == some ⟨.inner, .poll, 0, false⟩)
    ∧ after (.laneCycle .l0 0) (ready.onLine .l0 (fun u => { u with drive := SlotRec.off, outer := SlotRec.off, inner := SlotRec.off }))
        (fun u => (u.line .l0).await == none && (u.line .l0).nextCycle == 20) := by decide

/-- Two collisions on a cycle's first and fourth frames: two line errors, and a miss at the leaf drive (R140, R149). -/
theorem test_collisions : after (.laneCycle .l0 9) (ready.onLine .l0 (fun u => { u with pendingCmd := some .close }))
    (fun u => (u.lane .l0).counters.lineError == 2 && (u.line .l0).drive.miss == 1
      && (u.line .l0).frames == [slotFrame .outer .poll]) := by decide

/-- No reply: too early, a miss, the third miss, a query, a probe at a slot that was LOST and at one that was not. -/
theorem test_no_reply : ((awaits .drive .poll ready).line .l0).await = some ⟨.drive, .poll, 0, false⟩
    ∧ after (.noReply .l0 0) (awaits .drive .poll { ready with time := 1 }) (fun u => (u.line .l0).await.isSome)
    ∧ after (.noReply .l0 0) (awaits .drive .poll { ready with time := 2 }) (fun u => (u.line .l0).drive.miss == 1)
    ∧ after (.noReply .l0 0) (awaits .drive .poll ({ ready with time := 2 }.onLine .l0 (fun u => { u with drive := { u.drive with miss := 2 } })))
        (fun u => (u.line .l0).drive.status == .lost && (u.lane .l0).state == .fault && (u.line .l0).drive.retry == .running 1002)
    ∧ after (.noReply .l0 0) (awaits .drive .query { State.reset with time := 2 }) (fun u => (u.line .l0).drive == SlotRec.reset)
    ∧ after (.noReply .l0 0) (awaits .outer .probe { State.reset with time := 2 }) (fun u => (u.line .l0).outer.status == .silent)
    ∧ after (.noReply .l0 0) (awaits .outer .probe ({ State.reset with time := 2 }.onLine .l0 (fun u => { u with outer := { u.outer with status := .lost } })))
        (fun u => (u.line .l0).outer.status == .lost && (u.line .l0).outer.retry == .running 1002)
    ∧ after (.noReply .l0 0) { ready with time := 9 } (fun u => u == { ready with time := 9 }) := by decide

/-- Replies that are judged bad, of a wrong rate, and of jabber (R141, R142, R151). -/
theorem test_bad_reply : judgeReply .drive .poll (raw .outer 0xA [0, 0]) = .bad
    ∧ judgeReply .drive .query { raw .drive 0xB [1] with rate := 110591 } = .rate
    ∧ judgeReply .drive .query { raw .drive 0xB [1] with rate := 119808 } = .good (.leafProfile 1)
    ∧ after (.badReply .l0 (raw .outer 0xA [0, 0]) 0) (awaits .drive .poll ready)
        (fun u => (u.line .l0).drive.miss == 1 && (u.lane .l0).counters.lineError == 1)
    ∧ after (.badReply .l0 { raw .drive 0xB [1] with rate := 110591 } 0) (awaits .drive .query .reset)
        (fun u => (u.line .l0).drive.status == .refused && (u.line .l0).drive.refusal == some .rate)
    ∧ after (.badReply .l0 { raw .drive 0xA [0, 0] with rate := 110591 } 0) (awaits .drive .poll ready)
        (fun u => (u.line .l0).drive.miss == 1 && (u.lane .l0).counters.lineError == 1)
    ∧ after (.jabberReply .l0 0) (awaits .drive .poll ready)
        (fun u => (u.line .l0).drive.status == .jabber && (u.lane .l0).state == .fault && (u.lane .l0).counters.lineError == 1) := by
  decide

/-- To a frame of a round that a RESTART_LANE ended: nothing, a line error, jabber (R141, R142, R158); and a poll's frame
whose slot is no longer AGREED counts no miss (R149). -/
theorem test_void_reply : after (.noReply .l0 0) (awaitsVoid .drive .query { State.reset with time := 2 })
      (fun u => (u.line .l0).drive == SlotRec.reset && (u.line .l0).await.map (·.slot) == some .outer)
    ∧ after (.badReply .l0 (raw .outer 0xA [0, 0]) 0) (awaitsVoid .drive .query .reset)
        (fun u => (u.line .l0).drive == SlotRec.reset && (u.lane .l0).counters.lineError == 1)
    ∧ after (.badReply .l0 { raw .drive 0xB [1] with rate := 110591 } 0) (awaitsVoid .drive .query .reset)
        (fun u => (u.line .l0).drive == SlotRec.reset && (u.lane .l0).counters.lineError == 0)
    ∧ after (.jabberReply .l0 0) (awaitsVoid .drive .query .reset)
        (fun u => (u.line .l0).drive.status == .jabber && (u.lane .l0).counters.lineError == 1)
    ∧ after (.profileReply .l0 (raw .drive 0xB [6]) 0) (awaitsVoid .drive .query .reset) (fun u => (u.line .l0).drive == SlotRec.reset)
    ∧ after (.noReply .l0 0) (awaits .drive .poll { State.reset with time := 2 }) (fun u => (u.line .l0).drive == SlotRec.reset)
    ∧ after (.restartLane .security) (asks .security (.restartLane 0) (awaits .drive .poll ready))
        (fun u => (u.line .l0).await == some ⟨.drive, .poll, 0, false⟩)
    ∧ after (.restartLane .security) (asks .security (.restartLane 0) (awaits .drive .query .reset))
        (fun u => (u.line .l0).await == some ⟨.drive, .query, 0, true⟩) := by decide

/-- Good replies of each kind (R145, R147, R148, R152 to R154). -/
theorem test_good_replies : judgeReply .outer .poll (raw .outer 0x9 []) = .good .idle
    ∧ after (.idleReply .l0 (raw .outer 0x9 []) 0) (awaits .outer .poll (ready.onLine .l0 (fun u => { u with outer := { u.outer with miss := 2 } })))
        (fun u => (u.line .l0).outer.miss == 0)
    ∧ after (.idleReply .l0 (raw .outer 0x9 []) 0) (awaits .outer .probe { State.reset with bank := ⟨.secured, 0, false⟩ })
        (fun u => (u.line .l0).outer.profile == some (.reader 1 false) && (u.line .l0).outer.inferred)
    ∧ judgeReply .drive .poll (raw .drive 0xA [0x10, 4, 0x10]) = .good (.sense [.crossIn .outside] .closed ⟨true, false, false⟩)
    ∧ after (.senseReply .l0 (raw .drive 0xA [0x10, 4, 0x10]) 0) (awaits .drive .poll (ready.onLine .l0 (fun u => { u with pendingCmd := some .close })))
        (fun u => u.mail.sense == [(.l0, .event (.crossIn .outside)), (.l0, .update .closed ⟨true, false, false⟩)]
          && (u.line .l0).pendingCmd == none)
    ∧ judgeReply .outer .poll (raw .outer 0x8 [0, 0, 0, 1, 1]) = .good (.presentation 1 .card)
    ∧ after (.presentationReply .l0 (raw .outer 0x8 [0, 0, 0, 1, 1]) 0) (awaits .outer .poll ready)
        (fun u => (u.lane .l0).decision == some ⟨.entry, 1, .card⟩ && u.arbiter.second == [.lookup .l0])
    ∧ after (.presentationReply .l0 (raw .outer 0x8 [0, 0, 0, 1, 1]) 0) (awaits .outer .poll (ready.onLine .l0 (fun u => { u with outer := agreed (.reader 2 true) })))
        (fun u => (u.lane .l0).decision == none && (u.lane .l0).counters.denial == 1)
    ∧ bestLeaf 6 = some .singlePair
    ∧ after (.profileReply .l0 (raw .drive 0xB [6]) 0) (awaits .drive .query .reset) (fun u => (u.line .l0).drive.profile == some (.leaf .singlePair))
    ∧ after (.profileReply .l0 (raw .drive 0xB [6]) 0) (awaits .drive .query (State.reset.onLane .l0 (fun u => { u with settings := { u.settings with allowedLeaf := 1 } })))
        (fun u => (u.line .l0).drive.status == .refused && (u.line .l0).drive.refusal == some .mismatch)
    ∧ after (.profileReply .l0 (raw .inner 0xB [0x85]) 0) (awaits .inner .query .reset) (fun u => (u.line .l0).inner.profile == some (.reader 5 true))
    ∧ after (.profileReply .l0 (raw .inner 0xB [0x84]) 0) (awaits .inner .query (State.reset.onLane .l0 (fun u => { u with settings := { u.settings with allowedMedia := 3 } })))
        (fun u => (u.line .l0).inner.status == .refused) := by decide

/-- Retries, lockouts, strays and SET_LINE (R142, R143, R155, R159). -/
theorem test_line_timers :
    after (.retryExpiry .l0 .drive) ({ State.reset with time := 1000 }.onLine .l0 (fun u => { u with drive := { u.drive with status := .refused, refusal := some .rate, round := false, retry := .running 1000 } }))
        (fun u => (u.line .l0).drive.status == .querying && (u.line .l0).drive.round && (u.line .l0).drive.prior == some (.refused .rate))
    ∧ after (.retryExpiry .l0 .drive) ({ State.reset with time := 1000 }.onLine .l0 (fun u => { u with drive := { u.drive with status := .lost, round := false, retry := .running 1000 } }))
        (fun u => (u.line .l0).drive.status == .lost && (u.line .l0).drive.round)
    ∧ after (.retryExpiry .l0 .drive) ({ State.reset with time := 999 }.onLine .l0 (fun u => { u with drive := { u.drive with status := .silent, round := false, retry := .running 1000 } }))
        (fun u => (u.line .l0).drive.status == .silent)
    ∧ after (.lockoutExpiry .l0 .inner) ({ State.reset with time := 1000 }.onLine .l0 (fun u => { u with inner := { u.inner with status := .jabber, round := false, lockout := .running 1000 } }))
        (fun u => (u.line .l0).inner == SlotRec.reset)
    ∧ after (.lockoutExpiry .l0 .inner) ({ State.reset with time := 999 }.onLine .l0 (fun u => { u with inner := { u.inner with status := .jabber, round := false, lockout := .running 1000 } }))
        (fun u => (u.line .l0).inner.status == .jabber)
    ∧ after (.stray .l0) (ready.onLane .l0 (fun u => { u with counters := { u.counters with lineError := 255 } })) (fun u => (u.lane .l0).counters.lineError == 255)
    ∧ after (.stray .l0) (lane0 .isolated [] .reset) (fun u => (u.lane .l0).counters.lineError == 0)
    ∧ Asked .security (.setLine none) (asks .security (.setLine none) .reset)
    ∧ after (.setLine .security) (asks .security (.setLine none) .reset) (fun u => reply .security u == some [0, 1, 1])
    ∧ after (.setLine .security) (asks .security (.setLine (some 0)) .reset) (fun u => !u.bank.qualified && reply .security u == some [0, 1, 0])
    ∧ after (.setLine .security) (asks .security (.setLine (some 1)) .reset) (fun u => u.bank.qualified)
    ∧ after (.setLine .security) (asks .security (.setLine (some 2)) .reset) (fun u => reply .security u == some [6, 0]) := by
  unfold Asked; decide

/-! ## Lane events -/

/-- Lane 0 in a state with these windows, and a sense item waiting behind another lane's. -/
def senses (st : LaneState) (ws : List Window) (x : SenseItem) : State :=
  lane0 st ws { State.reset with mail := { Mail.reset with sense := [(.l1, .event .obstructOn), (.l0, x)] } }

/-- Crossings in and out, at the leaf and backward, with a window and without (R60 to R64). -/
theorem test_crossings : SenseWaits .l0 (.event (.crossIn .outside)) [(.l1, .event .obstructOn)] [] (senses .serving [window 0 .entry .opened] (.event (.crossIn .outside)))
    ∧ Attributed .l0 (senses .serving [window 0 .entry .opened] (.event (.crossIn .outside)))
    ∧ after (.crossIn .l0) (senses .serving [window 0 .entry .opened] (.event (.crossIn .outside)))
        (fun u => (u.lane .l0).windows.map (fun w => (w.state, w.transitDue)) == [(.transit, some 12000)] && u.mail.sense == [(.l1, .event .obstructOn)])
    ∧ after (.crossIn .l0) (senses .serving [window 0 .entry .transit] (.event (.crossIn .outside)))
        (fun u => (u.lane .l0).state == .alarm && (u.lane .l0).alarmReason == some .tailgate && (u.lane .l0).counters.tailgate == 1)
    ∧ after (.crossIn .l0) (senses .ready [] (.event (.crossIn .inside))) (fun u => (u.lane .l0).alarmReason == some .intrusion)
    ∧ after (.crossLeaf .l0) (senses .serving [window 0 .entry .transit] (.event (.crossLeaf .entry))) (fun u => (u.lane .l0).windows.map (·.pastLeaf) == [true])
    ∧ after (.crossOut .l0) (senses .serving [window 0 .entry .transit] (.event (.crossOut .inside)))
        (fun u => u.arbiter.first == [.posting ⟨⟨.l0, 0⟩, 1, .entry, .passed⟩] && (u.lane .l0).windows.map (·.state) == [.closing])
    ∧ after (.crossOut .l0) (senses .serving [window 0 .entry .opened] (.event (.crossOut .inside)))
        (fun u => u.arbiter.first == [] && u.mail.records.map (fun r => r.2.code) == [.lane .unmatchedExit])
    ∧ after (.retreat .l0) (senses .serving [window 0 .entry .transit] (.event (.retreat .outside)))
        (fun u => (u.lane .l0).windows.map (fun w => (w.state, w.retreats, w.openDue)) == [(.opened, 1, some 8000)])
    ∧ after (.retreat .l0) (senses .serving [{ window 0 .entry .transit with retreats := 1 }] (.event (.retreat .outside)))
        (fun u => u.arbiter.first == [.posting ⟨⟨.l0, 0⟩, 1, .entry, .unused⟩])
    ∧ after (.retreat .l0) (senses .alarm [window 0 .entry .transit] (.event (.retreat .outside)))
        (fun u => u.arbiter.first == [.posting ⟨⟨.l0, 0⟩, 1, .entry, .withdrawn⟩])
    ∧ after (.retreat .l0) (senses .serving [window 0 .exit .transit] (.event (.retreat .outside)))
        (fun u => u.mail.records.map (fun r => r.2.code) == [.lane .unmatchedRetreat])
    ∧ after (.pair .l0) (senses .serving [window 0 .entry .transit] (.event (.pair .outside))) (fun u => (u.lane .l0).alarmReason == some .tailgate)
    ∧ after (.pair .l0) (senses .serving [window 0 .entry .transit, window 1 .entry .opened] (.event (.pair .outside)))
        (fun u => (u.lane .l0).state == .serving) := by unfold SenseWaits Attributed; decide

/-- Obstruction, the picture's update, and crossings that a FREE lane does not attribute (R60, R67). -/
theorem test_sense_items : SenseWaits .l0 (.event .obstructOn) [(.l1, .event .obstructOn)] [] (senses .free [] (.event .obstructOn))
    ∧ ¬Attributed .l0 (senses .free [] (.event (.crossIn .outside)))
    ∧ after (.obstructOn .l0) (senses .ready [] (.event .obstructOn)) (fun u => (u.lane .l0).obstructDue == some 5000)
    ∧ after (.obstructOn .l0) (senses .free [] (.event .obstructOn)) (fun u => (u.lane .l0).obstruction && (u.lane .l0).obstructDue == none)
    ∧ after (.obstructOff .l0) ((senses .ready [] (.event .obstructOff)).onLane .l0 (fun u => { u with obstruction := true, obstructDue := some 9 }))
        (fun u => !(u.lane .l0).obstruction && (u.lane .l0).obstructDue == none)
    ∧ after (.senseStateUpdate .l0) (senses .ready [] (.update .held ⟨true, false, true⟩))
        (fun u => (u.lane .l0).leafPos == .held && (u.lane .l0).zones == ⟨true, false, true⟩)
    ∧ after (.crossIn .l0) (senses .free [] (.event (.crossIn .outside))) (fun u => (u.lane .l0).state == .free && u.mail.sense.length == 1)
    ∧ after (.crossLeaf .l0) (senses .free [] (.event (.crossLeaf .exit))) (fun u => u.mail.sense.length == 1)
    ∧ after (.crossOut .l0) (senses .free [] (.event (.crossOut .outside))) (fun u => u.mail.records == [])
    ∧ after (.retreat .l0) (senses .free [] (.event (.retreat .inside))) (fun u => u.mail.records == [])
    ∧ after (.pair .l0) (senses .free [] (.event (.pair .inside))) (fun u => (u.lane .l0).state == .free) := by
  unfold SenseWaits Attributed; decide

/-- The window timers and the obstruction's and the clear timer's ends (R65 to R67, R69). -/
theorem test_window_timers :
    after (.openTimerExpiry ⟨.l0, 0⟩) { lane0 .serving [{ window 0 .entry .opened with openDue := some 8000 }] .reset with time := 8000 }
        (fun u => u.arbiter.first == [.posting ⟨⟨.l0, 0⟩, 1, .entry, .unused⟩])
    ∧ after (.openTimerExpiry ⟨.l0, 0⟩) { lane0 .serving [{ window 0 .entry .opened with openDue := some 8000 }] .reset with time := 7999 }
        (fun u => u.arbiter.first == [])
    ∧ after (.transitTimerExpiry ⟨.l0, 0⟩) { lane0 .serving [{ window 0 .entry .transit with transitDue := some 12000 }] .reset with time := 12000 }
        (fun u => u.arbiter.first == [.posting ⟨⟨.l0, 0⟩, 1, .entry, .stalled⟩] && (u.lane .l0).alarmReason == some .loiter)
    ∧ after (.transitTimerExpiry ⟨.l0, 0⟩) { lane0 .serving [{ window 0 .entry .transit with transitDue := some 12000 }] .reset with time := 11999 }
        (fun u => (u.lane .l0).state == .serving)
    ∧ findWindow ready ⟨.l0, 0⟩ = none
    ∧ after (.obstructionTimerExpiry .l0) ({ ready with time := 5000 }.onLane .l0 (fun u => { u with obstruction := true, obstructDue := some 5000 }))
        (fun u => (u.lane .l0).alarmReason == some .obstructed && (u.lane .l0).counters.obstruct == 1)
    ∧ after (.obstructionTimerExpiry .l0) ({ ready with time := 4999 }.onLane .l0 (fun u => { u with obstruction := true, obstructDue := some 5000 }))
        (fun u => (u.lane .l0).state == .ready)
    ∧ after (.clearTimerExpiry .l0) ((lane0 .alarm [] { State.reset with time := 2000 }).onLane .l0 (fun u => { u with clearDue := some 2000 }))
        (fun u => (u.lane .l0).state == .ready)
    ∧ after (.clearTimerExpiry .l0) ((lane0 .alarm [] { State.reset with time := 1999 }).onLane .l0 (fun u => { u with clearDue := some 2000 }))
        (fun u => (u.lane .l0).state == .alarm && !(u.lane .l0).awaitingReset)
    ∧ after (.clearTimerExpiry .l0) ((lane0 .alarm [] { State.reset with time := 2000 }).onLane .l0
          (fun u => { u with clearDue := some 2000, settings := { u.settings with alarmLatch := true } }))
        (fun u => (u.lane .l0).state == .alarm && (u.lane .l0).awaitingReset && (u.lane .l0).clearDue == none)
    ∧ after (.clearTimerExpiry .l0) ((lane0 .alarm [] { State.reset with time := 2000 }).onLane .l0
          (fun u => { u with clearDue := some 2000, acknowledged := true, settings := { u.settings with alarmLatch := true } }))
        (fun u => (u.lane .l0).state == .ready) := by decide

/-- A paced window before and at its interval, and a display's hold with nothing waiting and with GO waiting (R58, R73). -/
theorem test_pace_and_display :
    paceHolds ((lane0 .serving [window 0 .entry .paced] { State.reset with time := 999 }).onLane .l0 (fun u => { u with action := .pace 0 1000, paceMark := some 0 })) .l0 .entry = true
    ∧ after (.paceIntervalExpiry .l0) ((lane0 .serving [window 0 .entry .paced] { State.reset with time := 999 }).onLane .l0 (fun u => { u with action := .pace 0 1000, paceMark := some 0 }))
        (fun u => (u.lane .l0).windows.map (·.state) == [.paced])
    ∧ after (.paceIntervalExpiry .l0) ((lane0 .serving [window 0 .entry .paced] { State.reset with time := 1000 }).onLane .l0 (fun u => { u with action := .pace 0 1000, paceMark := some 0 }))
        (fun u => (u.lane .l0).windows.map (fun w => (w.state, w.openDue)) == [(.opened, some 9000)] && (u.lane .l0).paceMark == some 1000)
    ∧ after (.displayHoldExpiry .l0 .outer) ({ ready with time := 600 }.onLane .l0 (fun u => { u with outer := ⟨some .wait, some 600, some .go, none⟩ }))
        (fun u => (u.lane .l0).outer == ⟨some .go, some 1200, none, none⟩ && (u.line .l0).showOuter == some .go)
    ∧ after (.displayHoldExpiry .l0 .inner) ({ ready with time := 600 }.onLane .l0 (fun u => { u with inner := ⟨some .wait, some 600, none, none⟩ }))
        (fun u => (u.lane .l0).inner == ⟨some .wait, none, none, none⟩)
    ∧ after (.displayHoldExpiry .l0 .inner) ({ ready with time := 599 }.onLane .l0 (fun u => { u with inner := ⟨some .wait, some 600, some .go, none⟩ }))
        (fun u => (u.lane .l0).inner == ⟨some .wait, some 600, some .go, none⟩) := by decide

/-- Removals of a PASSED and of an UNUSED window, and withdrawals before and after TRANSIT (R13, R50, R71). -/
theorem test_removal :
    after (.windowRemoval .l0) { lane0 .serving [{ window 0 .entry .closing with outcome := some .passed }] .reset with
          mail := { Mail.reset with results := [⟨⟨.l1, 5⟩, false, none, 0⟩, ⟨⟨.l0, 0⟩, false, some .staff, 2⟩] } }
        (fun u => (u.lane .l0).windows == [] && (u.lane .l0).state == .ready && u.mail.passages == [⟨.l0, .staff, .entry⟩]
          && u.mail.sponsors == [⟨.l0, 1, .staff, .entry, false, 2⟩] && u.mail.results == [⟨⟨.l1, 5⟩, false, none, 0⟩])
    ∧ after (.windowRemoval .l0) { lane0 .serving [{ window 0 .entry .closing with outcome := some .unused }] .reset with
          mail := { Mail.reset with results := [⟨⟨.l0, 0⟩, false, some .staff, 2⟩] } }
        (fun u => (u.lane .l0).windows == [] && u.mail.passages == [] && u.mail.sponsors == [])
    ∧ after (.windowRemoval .l0) { ready with mail := { Mail.reset with results := [⟨⟨.l0, 0⟩, false, some .staff, 2⟩] } } (fun u => u == ready)
    ∧ after (.windowWithdrawal .l0) { lane0 .serving [window 0 .entry .opened] .reset with mail := { Mail.reset with withdrawals := [⟨.l0, 0⟩] } }
        (fun u => u.arbiter.first == [.posting ⟨⟨.l0, 0⟩, 1, .entry, .withdrawn⟩] && u.mail.withdrawals == [])
    ∧ after (.windowWithdrawal .l0) { lane0 .serving [window 0 .entry .transit] .reset with mail := { Mail.reset with withdrawals := [⟨.l0, 0⟩] } }
        (fun u => u.arbiter.first == [] && u.mail.withdrawals == []) := by decide

end Sys2Proof.Tests
end

section
/-!
PROOFS. Power-on (R25): the blocks that `powerOn` leaves as they stand in `State.reset`, and when nothing waits for the
arbiter's third class.
-/
namespace Sys2Proof.Machine

/-! ## What power-on leaves -/

@[simp] theorem readStraps_keeps {b : Block} {s t : State} {straps : BitVec 5} (h : b ∉ [.pins, .bus]) :
    b.same s (readStraps straps t) ↔ b.same s t := by
  simp only [List.mem_cons, List.not_mem_nil, or_false, not_or] at h
  obtain ⟨hpins, hbus⟩ := h
  rw [readStraps, onBus_keeps hbus]
  cases b with
  | pins => exact absurd rfl hpins
  | _ => exact Iff.rfl

/-- Power-on has an outcome, and only the queue of commands, the pins, the bus unit (its port base, R184) and the bank
safety unit (its egress debounce, R138) may differ there from `State.reset`. -/
theorem exec_powerOn_keeps_reset (straps : BitVec 5) (high : Bool) (s : State) :
    ∃ t, exec (.powerOn straps high) s = .next t ∧ KeepsAllBut [.pending, .pins, .bus, .safety] .reset t := by
  refine ⟨_, rfl, fun b hb => ?_⟩
  simp only [List.mem_cons, List.not_mem_nil, or_false, not_or] at hb
  obtain ⟨hpending, hpins, hbus, hsafety⟩ := hb
  rw [compareInput_keeps (by simp [hsafety]), readStraps_keeps (by simp [hpins, hbus])]
  cases b with
  | pending => exact absurd rfl hpending
  | pins => exact absurd rfl hpins
  | _ => rfl

/-! ## Nothing waits at the arbiter's third class -/

theorem portWaits_eq_false {s : State} {p : Port} (hreq : s.request p = none) (hdesk : s.arbiter.desk.get p = none) :
    portWaits s p = false := by
  simp [portWaits, hreq, hdesk]

theorem claimantWaits_eq_false {s : State} (hports : ∀ p, portWaits s p = false) (hwalk : s.table.walk = none)
    (hamnesty : s.arbiter.amnesty = false) (c : Claimant) : claimantWaits s c = false := by
  cases c with
  | security => exact hports .security
  | reception => exact hports .reception
  | walker => simp [claimantWaits, hwalk]
  | safety => exact hamnesty

/-! ## The Permit Table at power-on -/

/-- Settles O12: the table and the arbiter are those of `State.reset`, and no port holds a request for the third class. -/
theorem powerOnTable : Obligations.PowerOnTable := by
  intro straps high s
  obtain ⟨t, hexec, hkeeps⟩ := exec_powerOn_keeps_reset straps high s
  have htable : t.table = .reset := hkeeps .table (by decide)
  have harbiter : t.arbiter = .reset := hkeeps .arbiter (by decide)
  have hdesk : ∀ p, t.arbiter.desk.get p = none := by rw [harbiter]; exact PerPort.get_fill none
  have hport : ∀ p, t.port p = .reset := fun p => (hkeeps (.port p) (by simp)).trans (PerPort.get_fill _ p)
  have hports : ∀ p, portWaits t p = false := fun p =>
    portWaits_eq_false (by rw [State.request, hport p]; rfl) (hdesk p)
  have hclaimants : ∀ c, claimantWaits t c = false :=
    claimantWaits_eq_false hports (by rw [htable]; rfl) (by rw [harbiter]; rfl)
  refine ⟨t, hexec, ?_⟩
  rw [htable, harbiter]
  exact ⟨rfl, rfl, rfl, rfl, rfl, rfl, rfl, rfl, rfl, PerPort.get_fill none, rfl, hports, hclaimants, rfl⟩

end Sys2Proof.Machine
end

section
/-!
PROOFS. Occupancy and the entry governor: the unit at power-on (R123), and the reply to COUNTS (R115).
-/
namespace Sys2Proof.Machine

/-! ## The occupancy unit at power-on -/

/-- The four groups stand at the same power-on value (R123). -/
theorem OccupancyUnit.reset_groups_get (n : Nat) : OccupancyUnit.reset.groups.get n = .reset := by
  match n with
  | 0 | 1 | 2 | _ + 3 => rfl

/-- With no group ACTIVE there is no active action (R119). -/
theorem OccupancyUnit.activeAction_eq_none {o : OccupancyUnit} (h : ∀ n, (o.groups.get n).active = false) :
    o.activeAction = .none := by
  have h0 : o.groups.g0.active = false := h 0
  have h1 : o.groups.g1.active = false := h 1
  have h2 : o.groups.g2.active = false := h 2
  have h3 : o.groups.g3.active = false := h 3
  simp [OccupancyUnit.activeAction, h0, h1, h2, h3]

theorem OccupancyUnit.reset_activeAction : OccupancyUnit.reset.activeAction = .none :=
  OccupancyUnit.activeAction_eq_none fun n => by rw [reset_groups_get]; rfl

/-- Settles O13: the occupancy unit is that of `State.reset`, whose groups all stand at `Group.reset`. -/
theorem powerOnGovernor : Obligations.PowerOnGovernor := by
  intro straps high s
  obtain ⟨t, hexec, hkeeps⟩ := exec_powerOn_keeps_reset straps high s
  have hoccupancy : t.occupancy = .reset := hkeeps .occupancy (by decide)
  refine ⟨t, hexec, ?_⟩
  rw [hoccupancy]
  refine ⟨rfl, rfl, rfl, rfl, fun n => ?_, rfl, OccupancyUnit.reset_activeAction⟩
  rw [OccupancyUnit.reset_groups_get]
  exact ⟨rfl, rfl, rfl, rfl, rfl, rfl, rfl, rfl, rfl⟩

/-! ## COUNTS -/

/-- An event that comes while RESET_N is not held low is taken. -/
theorem running_of_not_resetHeld {s : State} (h : s.resetHeld = false) (t : State) : running s t = .next t := by
  simp [running, h]

@[simp] theorem takeRequest_occupancy (p : Port) (s : State) : (takeRequest p s).occupancy = s.occupancy := by
  simp [takeRequest]

/-- COUNTS taken at the occupancy unit: the counts as they stand there make the reply's body (R115). -/
theorem exec_counts_of_asked {p : Port} {s : State} (h : Asked p .counts s) :
    exec (.counts p) s = .next (answer p .ok (countsBody s.occupancy) (taken p s)) := by
  obtain ⟨hrunning, hrequest⟩ := h
  calc exec (.counts p) s
    _ = execCounts p s := rfl
    _ = running s (answer p .ok (countsBody s.occupancy) (taken p s)) := by
      simp [execCounts, hrequest, takenByBlock, taken]
    _ = _ := running_of_not_resetHeld hrunning _

/-- Settles O24: the right is every port's (R187), and `countsBody` spells the five reply items. -/
theorem countsReplies : Obligations.CountsReplies := by
  intro p s hasked
  exact ⟨rfl, exec_counts_of_asked hasked⟩

end Sys2Proof.Machine
end

section
/-!
PROOFS. The frame of every command: what lies outside a command's footprint is left as it was.
-/
namespace Sys2Proof.Machine

variable {b : Block} {s t : State}

/-! ## The resets -/

/-- Outside the blocks that the resets reach are the queue of commands and the time base alone. -/
theorem not_mem_everyBlock (h : b ∉ everyBlock) : b = .pending ∨ b = .time := by
  refine Decidable.byContradiction fun hb => ?_
  obtain ⟨hpending, htime⟩ := not_or.mp hb
  exact h (mem_everyBlock hpending htime)

/-- A low level on RESET_N leaves the queue of commands and the time base. -/
theorem enterReset_keeps (h : b ∉ everyBlock) : b.same s (enterReset s) := by
  rcases not_mem_everyBlock h with rfl | rfl <;> rfl

/-- Leaving a warm reset leaves the queue of commands and the time base. -/
theorem leaveReset_keeps {straps : BitVec 5} (h : b ∉ everyBlock) : b.same t (leaveReset straps t) := by
  rcases not_mem_everyBlock h with rfl | rfl
  all_goals
    rw [leaveReset, compareInput_keeps (by decide), resumeSafety_keeps (by simp), readStraps_keeps (by decide)]
    rfl

/-- POWER_ON leaves the queue of commands alone. -/
theorem powerOn_keeps {straps : BitVec 5} {high : Bool} (h : exec (.powerOn straps high) s = .next t)
    (hb : b ∉ footprint (.powerOn straps high)) : b.same s t := by
  simp only [footprint, List.mem_cons, not_or] at hb
  obtain ⟨htime, hrest⟩ := hb
  obtain rfl := (not_mem_everyBlock hrest).resolve_right htime
  injection h with h
  subst h
  rw [compareInput_keeps (by decide), readStraps_keeps (by decide)]
  rfl

/-- Leaving a warm reset that stands, and a request for one, leave the queue of commands and the time base. -/
theorem bankReset_keeps {p : Port} {straps : BitVec 5} (h : exec (.bankReset p straps) s = .next t) (hb : b ∉ everyBlock) :
    b.same s t := by
  refine Block.same_running h ?_
  split
  · rcases not_mem_everyBlock hb with rfl | rfl
    · exact (leaveReset_keeps hb : Block.pending.same (enterReset s) _)
    · exact (leaveReset_keeps hb : Block.time.same (enterReset s) _)
  · exact Block.same_refl b s

/-! ## The level at EGRESS_REQ and the clock, which RESET_N does not hold off -/

theorem egressReqChange_keeps {high : Bool} (h : exec (.egressReqChange high) s = .next t)
    (hb : b ∉ footprint (.egressReqChange high)) : b.same s t := by
  simp only [footprint, List.mem_cons, List.not_mem_nil, or_false, not_or] at hb
  obtain ⟨hpins, hsafety⟩ := hb
  injection h with h
  subst h
  rw [Block.same_ite, compareInput_keeps (by simp [hsafety]), with_pins_keeps hpins]
  simp

theorem clockAdvance_keeps (h : exec .clockAdvance s = .next t) (hb : b ∉ footprint .clockAdvance) : b.same s t := by
  simp only [footprint, List.mem_cons, List.not_mem_nil, or_false, not_or] at hb
  injection h with h
  subst h
  split
  · dsimp only
    split <;> simp [hb]
  · exact Block.same_refl b s

/-! ## Replies on the lane lines, and sense items -/

variable {l : Lane} {coll : Collisions} {a : Await} {g : State → State}

/-- What an awaited frame's judgement leaves, its taking leaves: the line goes on with the cycle (R141). -/
theorem afterAwait_keeps (h : b ∉ laneEnding l) (hg : ∀ t, b.same s t → b.same s (g t)) :
    b.same s (afterAwait l coll a g s) := by
  simp [laneEnding, stateChange] at h
  have hline (f : LineUnit → LineUnit) : b.same s (s.onLine l f) := by simp [h]
  simp [afterAwait, h, hg, hline]

/-- A good reply touches what its taking touches, and the lane line. -/
theorem goodReply_keeps {r : RawReply} {kind : GoodReply → Bool} (h : b ∉ [Block.escort, .sense] ++ laneEnding l) :
    b.same s (goodReply l r coll kind s) := by
  have hlane : b ∉ laneEnding l := fun hm => h (List.mem_append_right _ hm)
  simp [laneEnding, stateChange] at h
  unfold goodReply
  (repeat' split) <;> try exact Block.same_refl b s
  exact afterAwait_keeps hlane fun t ht => (unlessVoid_keeps (by simp [h])).mpr ht

/-- A sense item taken leaves what its effect leaves (R60). -/
theorem senseStep_keeps {α : Type} {read : SenseItem → Option α} {f : α → State → State}
    (h : b ∉ [Block.sense, .lane l, .line l]) (hf : ∀ a t, b.same s t → b.same s (f a t)) :
    b.same s (senseStep l read f s) := by
  simp only [List.mem_cons, List.not_mem_nil, or_false, not_or] at h
  obtain ⟨hsense, hlane, hline⟩ := h
  have hmail (rest : List (Lane × SenseItem)) : b.same s (s.onMail (fun m => { m with sense := rest })) := by
    simp [hsense]
  unfold senseStep
  (repeat' split) <;> simp [hlane, hline, hf, hmail]

theorem attributed_keeps (hg : ∀ t, b.same s t → b.same s (g t)) (h : b.same s t) : b.same s (attributed l g t) := by
  unfold attributed
  split
  · exact hg t h
  · exact h

/-! ## Every command -/

/-- Settles O5, by the command: what each is made of leaves every block outside the footprint. The cases stand by how a
command is taken: as a reset, at the table, by a block, at a lane that a byte names, as a step of the walker, after an
awaited frame, from the sense items, or from a queue of its own. -/
theorem commandsKeepFrame : Obligations.CommandsKeepFrame := by
  intro c s t h b hb
  cases c with
  | powerOn straps high => exact powerOn_keeps h hb
  | warmReset => injection h with h; exact h ▸ enterReset_keeps hb
  | leaveWarmReset straps =>
    injection h with h
    subst h
    split
    · exact leaveReset_keeps hb
    · exact Block.same_refl b s
  | bankReset p straps => exact bankReset_keeps h hb
  | egressReqChange high => exact egressReqChange_keeps h hb
  | clockAdvance => exact clockAdvance_keeps h hb
  | insertEntry p | modifyEntry p | revokeEntry p | queryEntry p | setSide p | purge p | setQuota p | tableStatus p =>
    simp [footprint, answered] at hb
    refine Block.same_running h ?_
    split <;> simp [takenAtTable, hb]
  | deskPass p | setEscort p | escortStatus p | takeCalls p | assign p | decline p | setDispatch p | dispatchStatus p
  | setCounts p | counts p | setGovernor p | governorStatus p | restore p | setEgress p | lockdown p | safetyStatus p
  | setLine p | setClock p | setClockSource p | readClock p | readJournal p | subscribe p | journalStatus p
  | readNotices p | setNoticeMask p | setBus p | setBankMode p | setLaneMask p =>
    simp [footprint, answered, stateChange] at hb
    refine Block.same_running h ?_
    unfold takenByBlock
    (repeat' split) <;> simp [hb, -takeRequest_occupancy]
  | setLane p | isolateLane p | resumeLane p | restartLane p | alarmReset p | readLaneCounters p | laneStatus p =>
    simp [footprint, answered, stateChange] at hb
    refine Block.same_running h ?_
    unfold atLane takenByBlock
    (repeat' split) <;> simp [hb]
  | sweepStep c | forcedRevokeStart | forcedRevokeStep c | forcedRevokeEnd | purgeFirstPassStep c | purgeSecondPassStep c
  | purgeFinalStep =>
    simp [footprint] at hb
    refine Block.same_running h ?_
    unfold walkerStep
    (repeat' split) <;> simp [hb]
  | idleReply l r coll | presentationReply l r coll | senseReply l r coll | profileReply l r coll =>
    exact Block.same_running h (goodReply_keeps hb)
  | noReply l coll | badReply l r coll | jabberReply l coll =>
    have hlane := hb
    simp [footprint, laneEnding, stateChange] at hb
    refine Block.same_running h ?_
    (repeat' split) <;> try exact Block.same_refl b s
    all_goals exact afterAwait_keeps hlane fun t ht => by simp [hb, ht]
  | crossIn l | crossLeaf l | crossOut l | retreat l | pair l =>
    simp [footprint, laneEnding, stateChange] at hb
    exact Block.same_running h (senseStep_keeps (by simp [hb]) fun a t => attributed_keeps fun t ht => by simp [hb, ht])
  | obstructOn l | obstructOff l | senseStateUpdate l =>
    simp [footprint] at hb
    exact Block.same_running h (senseStep_keeps (by simp [hb]) fun a t ht => by simp [hb, ht])
  | _ =>
    simp [footprint, laneEnding, laneReturn, creation, stateChange, answered] at hb
    refine Block.same_running h ?_
    try dsimp only
    (repeat' split) <;> simp [hb]

end Sys2Proof.Machine
end

section
/-!
PROOFS. Steps in general, the commands that have no effect, and the laws at power-on.
-/
namespace Sys2Proof.Machine

/-! ## Steps -/

/-- Settles O1: the step's match on a queue with a front. -/
theorem stepTakesFront : Obligations.StepTakesFront := fun _ _ => rfl

/-- Settles O2: the step's match on an empty queue is the tick. -/
theorem stepWithNothingWaiting : Obligations.StepWithNothingWaiting := fun s h => by simp [step, h, tick]

/-- Settles O3: a reset answers its next state, and every other command goes through `running`. -/
theorem everyCommandAnswersNext : Obligations.EveryCommandAnswersNext := by
  intro c s
  cases c <;> exact ⟨_, rfl⟩

/-! ## Commands without an effect -/

/-- An event that comes while RESET_N is held low is not taken (log entry 9). -/
theorem running_of_resetHeld {s : State} (h : s.resetHeld = true) (t : State) : running s t = .next s := by
  simp [running, h]

/-- An event without an effect changes nothing, taken or not. -/
theorem running_self (s : State) : running s s = .next s := by simp [running]

theorem tableRequest_eq_none {s : State} {p : Port} (h : s.request p = none) : tableRequest s p = none := by
  simp [tableRequest, h]

theorem exec_of_resetHeld {c : Instr} {s : State} (h : s.resetHeld = true)
    (hpower : ∀ straps high, c ≠ .powerOn straps high) (hwarm : c ≠ .warmReset)
    (hleave : ∀ straps, c ≠ .leaveWarmReset straps) (hegress : ∀ high, c ≠ .egressReqChange high)
    (hclock : c ≠ .clockAdvance) : exec c s = .next s := by
  cases c with
  | powerOn straps high => exact absurd rfl (hpower straps high)
  | warmReset => exact absurd rfl hwarm
  | leaveWarmReset straps => exact absurd rfl (hleave straps)
  | egressReqChange high => exact absurd rfl (hegress high)
  | clockAdvance => exact absurd rfl hclock
  | _ => exact running_of_resetHeld h _

/-- A request row whose port has handed on no request is an event without an effect (log entry 2). -/
theorem exec_of_no_request {c : Instr} {s : State} {r : RequestName × Port} (hc : c.requestRow = some r)
    (h : s.request r.2 = none) : exec c s = .next s := by
  have htable := tableRequest_eq_none h
  cases c <;> cases hc <;> refine (congrArg (running s) ?_).trans (running_self s) <;> dsimp only at h htable
  case insertEntry | modifyEntry | revokeEntry | queryEntry | setSide | purge | setQuota | tableStatus => rw [htable]
  all_goals rw [h]

/-- Settles O4. -/
theorem commandsWithoutEffect : Obligations.CommandsWithoutEffect :=
  ⟨fun _ _ => exec_of_resetHeld, fun _ _ _ => exec_of_no_request⟩

/-! ## The laws at power-on -/

theorem reset_lawful : TableLaw State.reset := ⟨rfl, by decide, rfl, by decide, by decide⟩

theorem reset_places : PlacesLaw State.reset := by
  intro l
  cases l <;> decide

theorem reset_counters : CountersLaw State.reset := by
  refine ⟨fun l => ?_, Nat.zero_le _⟩
  have h : (State.reset.lane l).counters = .reset := congrArg LaneUnit.counters (PerLane.get_fill _ l)
  rw [h]
  exact ⟨Nat.zero_le _, Nat.zero_le _, Nat.zero_le _, Nat.zero_le _, Nat.zero_le _, Nat.zero_le _⟩

theorem reset_groups (n : Nat) : (State.reset.occupancy.groups.get n).active = false :=
  congrArg Group.active (OccupancyUnit.reset_groups_get n)

theorem reset_alerts : AlertLaw State.reset := by
  intro p
  cases p <;> decide

/-- Settles O6: each law holds of the empty collections and of the reset values. -/
theorem resetMeetsInvariants : Obligations.ResetMeetsInvariants :=
  ⟨reset_lawful, reset_places, Nat.zero_le _, ⟨List.nodup_nil, List.nodup_nil⟩, ⟨Nat.zero_le _, Nat.zero_le _⟩,
    ⟨Nat.zero_le _, fun r hr => absurd hr List.not_mem_nil, fun p => by cases p <;> exact Nat.zero_le _⟩,
    ⟨Nat.zero_le _, Nat.zero_le _, Nat.zero_le _, fun n _ => reset_groups n⟩, reset_counters, reset_alerts,
    by decide, by decide, by decide, by decide⟩

end Sys2Proof.Machine
end

section
/-!
PROOFS. Every step keeps the laws of the collections.
-/
namespace Sys2Proof.Machine

/-! ## From the commands to the steps -/

/-- A step keeps a law that a tick and every command keep. -/
theorem step_keeps {P : State → Prop} (htick : ∀ s, P s → P (tick s))
    (hpending : ∀ s rest, P s → P { s with pending := rest })
    (hexec : ∀ c s t, P s → exec c s = .next t → P t) {s t : State} (h : P s) (hs : step s = .next t) : P t := by
  unfold step at hs
  split at hs
  · injection hs with hs
    exact hs ▸ htick s h
  · exact hexec _ _ _ (hpending s _ h) hs

/-- What holds of a state and of an event's effect on it holds of its outcome, taken or not. -/
theorem running_keeps {P : State → Prop} {s u t : State} (h : running s u = .next t) (hs : P s) (hu : P u) : P t := by
  unfold running at h
  split at h <;> (injection h with h; subst h; assumption)

/-- What power-on leaves in a block of the state, but for the pins, the bus unit and the bank safety unit. -/
theorem powerOn_same {b : Block} {straps : BitVec 5} {high : Bool} {s t : State}
    (h : exec (.powerOn straps high) s = .next t) (hb : b ∉ [.pending, .pins, .bus, .safety]) : b.same .reset t := by
  obtain ⟨u, hu, hkeeps⟩ := exec_powerOn_keeps_reset straps high s
  rw [hu] at h
  injection h with h
  exact h ▸ hkeeps b hb

/-! ## The Permit Table -/

/-- A command whose footprint leaves the Permit Table keeps its law. -/
theorem TableLaw.of_frame {c : Instr} {s t : State} (h : TableLaw s) (hc : Block.table ∉ footprint c)
    (hs : exec c s = .next t) : TableLaw t := h.of_same (commandsKeepFrame c s t hs .table hc)

theorem walkerStep_lawful {f : State → State} {s : State} (hf : TableLaw (f s)) (h : TableLaw s) :
    TableLaw (walkerStep f s) := by
  unfold walkerStep
  split
  · exact hf
  · exact h

/-- A claim cleared, a side forgotten, a mark of removal taken away leave the credentials and the issuers. -/
theorem TableUnit.lawful_map {t u : TableUnit} {f : Entry → Entry} (h : TableUnit.Lawful t)
    (hf : ∀ e, (f e).cred = e.cred ∧ (f e).issuer = e.issuer) (he : u.entries = t.entries.map f)
    (hc : u.receptionCount = t.receptionCount) (hq : u.quota = t.quota) : TableUnit.Lawful u := by
  refine TableUnit.lawful_of_shape h ?_ hc hq
  simp [he, Function.comp_def, hf]

theorem enterReset_lawful {s : State} (h : TableLaw s) : TableLaw (enterReset s) :=
  TableUnit.lawful_map (f := fun e => { e with claim := none, inRemoval := false }) h (fun _ => ⟨rfl, rfl⟩) rfl rfl rfl

theorem leaveReset_lawful {straps : BitVec 5} {s : State} (h : TableLaw s) : TableLaw (leaveReset straps s) := by
  refine h.of_same ?_
  rw [leaveReset, compareInput_keeps (by decide), resumeSafety_keeps (by simp), readStraps_keeps (by decide)]
  rfl

theorem handAdvance_lawful {former : ClockUnit} {s : State} (h : TableLaw s) : TableLaw (handAdvance former s) := by
  unfold handAdvance
  dsimp only
  (repeat' split) <;> first | exact h | exact minuteSweep_lawful h

theorem portServed_lawful {p : Port} {s : State} (h : TableLaw s) : TableLaw (portServed p s) := by
  unfold portServed
  split <;> exact h

/-- A port's request taken at the table keeps the law when its effect does. -/
theorem takenAtTable_lawful {p : Port} {f : State → State} {s : State} (hf : ∀ t, TableLaw t → TableLaw (f t))
    (h : TableLaw s) : TableLaw (takenAtTable p f s) :=
  hf _ (portServed_lawful (h.of_same (by simp)))

/-- Every command keeps the Permit Table lawful: those that touch it by the lemma of their operation, the others by
their frame. -/
theorem exec_lawful {c : Instr} {s t : State} (h : TableLaw s) (hs : exec c s = .next t) : TableLaw t := by
  cases c with
  | powerOn straps high => exact reset_lawful.of_same (powerOn_same hs (by decide))
  | warmReset => injection hs with hs; exact hs ▸ enterReset_lawful h
  | leaveWarmReset straps =>
    injection hs with hs
    subst hs
    split
    · exact leaveReset_lawful h
    · exact h
  | bankReset p straps =>
    refine running_keeps hs h ?_
    split
    · exact leaveReset_lawful (enterReset_lawful h)
    · exact h
  | clockAdvance =>
    injection hs with hs
    subst hs
    (repeat' split) <;> first | exact h | exact handAdvance_lawful h
  | insertEntry p =>
    refine running_keeps hs h ?_
    split
    · exact takenAtTable_lawful (fun _ => insertEntry_lawful) h
    · exact h
  | modifyEntry p =>
    refine running_keeps hs h ?_
    split
    · exact takenAtTable_lawful (fun _ => modifyEntry_lawful) h
    · exact h
  | revokeEntry p =>
    refine running_keeps hs h ?_
    split
    · exact takenAtTable_lawful (fun _ => revokeEntry_lawful) h
    · exact h
  | setSide p =>
    refine running_keeps hs h ?_
    split
    · exact takenAtTable_lawful (fun _ => setSide_lawful) h
    · exact h
  | purge p =>
    refine running_keeps hs h ?_
    split
    · exact takenAtTable_lawful (fun _ => purge_lawful) h
    · exact h
  | setQuota p =>
    refine running_keeps hs h ?_
    split
    · exact takenAtTable_lawful (fun _ => setQuota_lawful) h
    · exact h
  | amnesty =>
    refine running_keeps hs h ?_
    split
    · exact TableUnit.lawful_map (f := fun e => { e with side := .unknown }) h (fun _ => ⟨rfl, rfl⟩) rfl rfl rfl
    · exact h
  | sweepStep x =>
    refine running_keeps hs h ?_
    (repeat' split) <;> try exact h
    · exact walkerStep_lawful (settleSweep_lawful h) h
    · exact walkerStep_lawful (settleSweep_lawful (sweepVisit_lawful h)) h
  | purgeFirstPassStep x =>
    refine running_keeps hs h ?_
    (repeat' split) <;> try exact h
    · exact walkerStep_lawful (settlePurge_lawful h) h
    · exact walkerStep_lawful (settlePurge_lawful (purgeFirstVisit_lawful h)) h
  | purgeSecondPassStep x =>
    refine running_keeps hs h ?_
    (repeat' split) <;> try exact h
    · exact walkerStep_lawful (settlePurge_lawful h) h
    · exact walkerStep_lawful (settlePurge_lawful (purgeSecondVisit_lawful h)) h
  | purgeFinalStep =>
    refine running_keeps hs h ?_
    (repeat' split) <;> first | exact h | exact walkerStep_lawful (purgeEnd_lawful h) h
  | forcedRevokeStart =>
    refine running_keeps hs h ?_
    (repeat' split) <;> first | exact h | exact walkerStep_lawful (forcedStart_lawful h) h
  | forcedRevokeStep x =>
    refine running_keeps hs h ?_
    (repeat' split) <;> first | exact h | exact walkerStep_lawful (forcedVisit_lawful h) h
  | forcedRevokeEnd =>
    refine running_keeps hs h ?_
    (repeat' split) <;> first | exact h | exact walkerStep_lawful (forcedEnd_lawful h) h
  | presentationLookup =>
    refine running_keeps hs h ?_
    (repeat' split) <;> first | exact h | exact lookupAtTable_lawful h
  | escortRelease =>
    refine running_keeps hs h ?_
    (repeat' split) <;> first | exact h | exact releaseAtTable_lawful h
  | passagePosting =>
    refine running_keeps hs h ?_
    (repeat' split) <;> first | exact h | exact post_lawful h
  | deskPassLookup p =>
    refine running_keeps hs h ?_
    (repeat' split) <;> try exact h
    exact deskAtTable_lawful (portServed_lawful h)
  | escortClaimRelease =>
    refine running_keeps hs h ?_
    split
    · exact onEntry_lawful (s := popFirst s) h fun _ _ _ => ⟨rfl, rfl⟩
    · exact h
  | _ => exact h.of_frame (by simp [footprint, answered, stateChange, laneEnding, laneReturn, creation]) hs

/-- Settles O7: a tick leaves the table. -/
theorem stepKeepsTableLaw : Obligations.StepKeepsTableLaw := fun _ _ h hs =>
  step_keeps (fun _ h => h) (fun _ _ h => h) (fun _ _ _ => exec_lawful) h hs

end Sys2Proof.Machine
end

section
/-!
PROOFS. Every step keeps windows and held places within a lane's two places (R31).
-/
namespace Sys2Proof.Machine

variable {s t : State}

/-- A command whose footprint leaves the arbiter and the lanes keeps the law of places. -/
theorem PlacesLaw.of_frame {c : Instr} (h : PlacesLaw s) (harbiter : Block.arbiter ∉ footprint c)
    (hlane : ∀ l, Block.lane l ∉ footprint c) (hs : exec c s = .next t) : PlacesLaw t :=
  h.of_data fun m => placeData_of_same (commandsKeepFrame c s t hs .arbiter harbiter)
    (commandsKeepFrame c s t hs (.lane m) (hlane m))

/-- An event whose effect leaves what the places depend on keeps the law, taken or not. -/
theorem PlacesLaw.of_running {u : State} (h : PlacesLaw s) (hu : ∀ m, placeData u m = placeData s m)
    (hs : running s u = .next t) : PlacesLaw t := running_keeps hs h (h.of_data hu)

theorem placesLaw_of_none {s : State} (hwindows : ∀ l, (s.lane l).windows = [])
    (hdecision : ∀ l, (s.lane l).decision = none) (harbiter : s.arbiter = .reset) : PlacesLaw s := by
  intro l
  have hheld : heldPlaces s l = 0 := by
    rw [heldPlaces, hdecision l, harbiter]
    rfl
  simp [hwindows l, hheld]

theorem enterReset_law : PlacesLaw (enterReset s) := by
  have hlane (l : Lane) : (enterReset s).lane l
      = LaneUnit.warm (hasLane s.bank.mask l) s.occupancy.warm.activeAction (s.lane l) := PerLane.get_tabulate _ l
  exact placesLaw_of_none (fun l => by rw [hlane]; rfl) (fun l => by rw [hlane]; rfl) rfl

theorem leaveReset_law {straps : BitVec 5} (h : PlacesLaw s) : PlacesLaw (leaveReset straps s) := by
  refine h.of_data fun m => ?_
  rw [leaveReset, compareInput_placeData, resumeSafety_placeData]
  rfl

/-- A desk pass taken from the arbiter at its turn gives its place back (R45). -/
theorem placesUsed_takeDesk {p : Port} {d : DeskLookup} (hd : s.arbiter.desk.get p = some d) (m : Lane) :
    placesUsed (s.onArbiter (fun a => { a with desk := a.desk.set p none })) m + (if d.lane = m then 1 else 0)
      = placesUsed s m := by
  have := deskHeld_set_none hd m
  simp only [placesUsed_eq, State.onArbiter_fields, State.onArbiter_reads]
  omega

/-- What the decision unit does with the oldest operation of the second class keeps the law (R31, R41). -/
theorem presentationLookup_law (h : PlacesLaw s) (hs : exec .presentationLookup s = .next t) : PlacesLaw t := by
  have hpop : PlacesLaw (popSecond s) := fun m => Nat.le_trans (popSecond_places m) (h m)
  refine running_keeps hs h ?_
  split
  · split
    · rename_i hdecision
      exact lookupAtTable_law hpop (by simp [popSecond, hdecision])
    · exact hpop
  · exact h

/-- An escort release at the table takes the place it held (R86, R87). -/
theorem escortRelease_law (h : PlacesLaw s) (hs : exec .escortRelease s = .next t) : PlacesLaw t := by
  refine running_keeps hs h ?_
  split
  · rename_i v l hturn
    have hhead : s.arbiter.second.head? = some (.release v l) := by
      unfold secondTurn at hturn
      split at hturn
      · exact hturn
      · cases hturn
    have hused := popSecond_release_places hhead l
    have hl : placesUsed s l ≤ Config.placesPerLane := h l
    exact releaseAtTable_law (fun m => Nat.le_trans (popSecond_places m) (h m)) (by rw [if_pos rfl] at hused; omega)
  · exact h

/-- A desk pass at the table takes the place it held (R45, R47). -/
theorem deskPassLookup_law {p : Port} (h : PlacesLaw s) (hs : exec (.deskPassLookup p) s = .next t) : PlacesLaw t := by
  refine running_keeps hs h ?_
  (repeat' split) <;> try exact h
  rename_i d hd _
  have hused (m : Lane) := placesUsed_takeDesk hd m
  have hserved (m : Lane) : placesUsed (portServed p (s.onArbiter (fun a => { a with desk := a.desk.set p none }))) m
      = placesUsed (s.onArbiter (fun a => { a with desk := a.desk.set p none })) m :=
    placesUsed_of_data portServed_placeData
  refine deskAtTable_law (placesLaw_iff.mpr fun m => ?_) ?_
  · have hm : placesUsed s m ≤ Config.placesPerLane := h m
    have := hused m
    rw [hserved]
    omega
  · have hm : placesUsed s d.lane ≤ Config.placesPerLane := h d.lane
    have := hused d.lane
    rw [if_pos rfl] at this
    rw [hserved]
    omega

/-- A request at the lane that a byte names keeps the law when its effect at each lane does. -/
theorem atLane_law {p : Port} {x : Byte} {f : Lane → State → State} (hf : ∀ l t, PlacesLaw t → PlacesLaw (f l t))
    (h : PlacesLaw s) : PlacesLaw (atLane p x f s) := by
  have htaken : PlacesLaw (takeRequest p s) := h.of_data fun _ => takeRequest_placeData
  unfold atLane takenByBlock
  split
  · exact hf _ _ htaken
  · exact answer_law htaken

theorem setBankMode_law {p : Port} {m : Mode} (h : PlacesLaw s) :
    PlacesLaw (bankModeChanged s.bank.mode m Lane.all
      (answer p .ok [] { s with bank := { s.bank with mode := m } })) :=
  bankModeChanged_law (answer_law (h.of_data fun _ => rfl))

theorem unlessVoid_placeData {a : Await} {g : State → State} {m : Lane} (hg : placeData (g t) m = placeData t m) :
    placeData (a.unlessVoid g t) m = placeData t m := by
  unfold Await.unlessVoid
  split
  · rfl
  · exact hg

/-- An awaited frame's judgement leaves what the places depend on when its effect does. -/
theorem afterAwait_placeData {l m : Lane} {coll : Collisions} {a : Await} {g : State → State}
    (hg : ∀ t, placeData (g t) m = placeData t m) : placeData (afterAwait l coll a g s) m = placeData s m := by
  unfold afterAwait
  dsimp only
  rw [runSlots_placeData, hg, onLine_placeData]

/-- Every command keeps the places: those whose effect leaves what the places depend on, those that give or take a place
by the lemma of their operation, and the others by their frame. -/
theorem exec_places {c : Instr} (h : PlacesLaw s) (hs : exec c s = .next t) : PlacesLaw t := by
  cases c with
  | powerOn straps high =>
    exact reset_places.of_data fun m => placeData_of_same (powerOn_same hs (by decide)) (powerOn_same hs (by simp))
  | warmReset => injection hs with hs; exact hs ▸ enterReset_law
  | leaveWarmReset straps =>
    injection hs with hs
    subst hs
    split
    · exact leaveReset_law h
    · exact h
  | bankReset p straps =>
    refine running_keeps hs h ?_
    split
    · exact leaveReset_law enterReset_law
    · exact h
  | insertEntry p | modifyEntry p | revokeEntry p | queryEntry p | setSide p | purge p | setQuota p | tableStatus p =>
    refine h.of_running (fun m => ?_) hs
    split <;> simp [takenAtTable]
  | sweepStep c | forcedRevokeStart | forcedRevokeStep c | forcedRevokeEnd | purgeFirstPassStep c | purgeSecondPassStep c
  | purgeFinalStep =>
    refine h.of_running (fun m => ?_) hs
    unfold walkerStep
    (repeat' split) <;> simp
  | isolateLane p | resumeLane p | restartLane p | readLaneCounters p =>
    refine h.of_running (fun m => ?_) hs
    unfold atLane takenByBlock
    (repeat' split) <;> simp
  | takeCalls p | assign p | decline p | restore p =>
    refine h.of_running (fun m => ?_) hs
    unfold takenByBlock
    (repeat' split) <;> simp [-takeRequest_occupancy]
  | egressDebounceExpiry | overtakeOrder l | laneStateReport l | amnestyDone | lockdownOrder l | escortLockdown
  | escortEgressClear | laneCycle l coll | stray l | openTimerExpiry g | transitTimerExpiry g
  | obstructionTimerExpiry l | paceIntervalExpiry l | reservationHoldExpiry l | escortClaimRelease
  | passagePosting | windowWithdrawal l | sponsorPassage l | callTimerExpiry g | dispatchIndication l | holdForCarReport l
  | activeActionUpdate l =>
    refine h.of_running (fun m => ?_) hs
    try dsimp only
    (repeat' split) <;> simp [onLane_placeData]
  | jabberReply l coll | noReply l coll | badReply l r coll =>
    refine h.of_running (fun m => ?_) hs
    (repeat' split) <;> first | rfl | exact afterAwait_placeData fun t => by simp [unlessVoid_placeData]
  | setLaneMask p =>
    refine h.of_running (fun m => ?_) hs
    split
    · exact applyMask_placeData.trans rfl
    · rfl
  | amnesty =>
    refine h.of_running (fun m => ?_) hs
    split <;> rfl
  | displayHoldExpiry l rd =>
    refine h.of_running (fun m => ?_) hs
    (repeat' split)
    · exact showNow_placeData
    · cases rd <;> exact onLane_placeData rfl rfl
    · rfl
  | crossIn l | crossLeaf l | crossOut l | retreat l | pair l =>
    exact running_keeps hs h (senseStep_law (fun _ => attributed_placeData (by simp)) h)
  | obstructOn l => exact running_keeps hs h (senseStep_law (by simp) h)
  | obstructOff l | senseStateUpdate l => exact running_keeps hs h (senseStep_law (fun _ _ _ => onLane_placeData rfl rfl) h)
  | idleReply l r coll | presentationReply l r coll | senseReply l r coll | profileReply l r coll =>
    exact running_keeps hs h (goodReply_law h)
  | presentationLookup => exact presentationLookup_law h hs
  | setLane p =>
    refine running_keeps hs h ?_
    split <;> first | exact h | exact atLane_law (fun _ _ => setLane_law) h
  | alarmReset p =>
    refine running_keeps hs h ?_
    split <;> first | exact h | exact atLane_law (fun _ _ => alarmReset_law) h
  | setBankMode p =>
    refine running_keeps hs h ?_
    unfold takenByBlock
    (repeat' split)
    · exact setBankMode_law (h.of_data fun _ => takeRequest_placeData)
    · exact answer_law (h.of_data fun _ => takeRequest_placeData)
    · exact h
  | setEscort p =>
    refine running_keeps hs h ?_
    split
    · exact setEscort_law (h.of_data fun _ => takeRequest_placeData)
    · exact h
  | deskPass p =>
    have htaken : PlacesLaw (takeRequest p s) := h.of_data fun _ => takeRequest_placeData
    refine running_keeps hs h ?_
    unfold takenByBlock
    (repeat' split) <;> first | exact h | exact deskPassAt_law htaken | exact answer_law htaken
  | deskPassLookup p => exact deskPassLookup_law h hs
  | escortRelease => exact escortRelease_law h hs
  | windowRemoval l =>
    refine running_keeps hs h ?_
    dsimp only
    (repeat' split) <;> first | exact h | exact removeWindow_law h
  | laneReleaseNotice l =>
    refine running_keeps hs h ?_
    split <;> first | exact h | exact settleLane_law h
  | escortWaitExpiry c =>
    refine running_keeps hs h ?_
    (repeat' split) <;> first | exact h | exact timeoutWait_law h
  | escortEndMessage =>
    refine running_keeps hs h ?_
    split
    · exact withdrawWait_law h
    · exact PlacesLaw.of_data h fun _ => removeCredit_placeData
    · exact h
  | freeRestoreClearExpiry l =>
    refine running_keeps hs h ?_
    split <;> first | exact h | exact endEvent_law (backToReady_law h)
  | clearTimerExpiry l =>
    refine running_keeps hs h ?_
    split
    · refine endEvent_law ?_
      split
      · exact h.of_data fun _ => onLane_placeData rfl rfl
      · exact backToReady_law h
    · exact h
  | _ => exact h.of_frame (by simp [footprint, answered]) (by simp [footprint, answered]) hs

/-- Settles O8: a tick leaves the arbiter and the lanes. -/
theorem stepKeepsPlacesLaw : Obligations.StepKeepsPlacesLaw := fun _ _ h hs =>
  step_keeps (fun _ h => h) (fun _ _ h => h) (fun _ _ _ => exec_places) h hs

end Sys2Proof.Machine
end

section
/-!
PROOFS. Every step keeps the escort list within its 16 records, with one WAIT a visitor and one credit a sponsor (R39, R82).
-/
namespace Sys2Proof.Machine

/-! ## A list that only shrinks -/

/-- A change of the escort list that makes no record: no longer, with no other visitors and no other sponsors. -/
def EscortShrinks (s t : State) : Prop :=
  t.escort.list.length ≤ s.escort.list.length
    ∧ (waitingVisitors t.escort.list).Sublist (waitingVisitors s.escort.list)
    ∧ (creditedSponsors t.escort.list).Sublist (creditedSponsors s.escort.list)

/-- What a command does to the laws of the escort list. -/
def KeepsEscort (s t : State) : Prop := (EscortLaw s → EscortLaw t) ∧ (EscortNamesLaw s → EscortNamesLaw t)

variable {s t u : State} {v c sp : Cred} {l : Lane} {ph : WaitPhase} {p : Port}

theorem EscortShrinks.refl (s : State) : EscortShrinks s s := ⟨Nat.le_refl _, .refl _, .refl _⟩

theorem EscortShrinks.trans (h : EscortShrinks s t) (k : EscortShrinks t u) : EscortShrinks s u :=
  ⟨Nat.le_trans k.1 h.1, k.2.1.trans h.2.1, k.2.2.trans h.2.2⟩

/-- A state with the same escort unit stands in every place of one. -/
theorem EscortShrinks.to_same (h : EscortShrinks s t) (k : Block.escort.same t u) : EscortShrinks s u := by
  have hk : u.escort = t.escort := k
  rw [EscortShrinks, hk]
  exact h

theorem EscortShrinks.of_list (k : s.escort.list = t.escort.list) : EscortShrinks s t := by
  rw [EscortShrinks, k]
  exact EscortShrinks.refl t

theorem EscortShrinks.of_same (k : Block.escort.same s t) : EscortShrinks s t := (EscortShrinks.refl s).to_same k

theorem EscortShrinks.keeps (h : EscortShrinks s t) : KeepsEscort s t :=
  ⟨fun hs => Nat.le_trans h.1 hs, fun hs => ⟨hs.1.sublist h.2.1, hs.2.sublist h.2.2⟩⟩

/-- Records taken from the list. -/
theorem EscortShrinks.filter {f : EscortRec → Bool} (h : t.escort.list = s.escort.list.filter f) : EscortShrinks s t := by
  rw [EscortShrinks, h]
  exact ⟨List.length_filter_le .., List.filter_sublist.filterMap _, List.filter_sublist.filterMap _⟩

/-- A change of the records that leaves each one's kind and name. -/
theorem EscortShrinks.map {f : EscortRec → EscortRec} (h : t.escort.list = s.escort.list.map f)
    (hf : ∀ r, waitingVisitors [f r] = waitingVisitors [r] ∧ creditedSponsors [f r] = creditedSponsors [r]) :
    EscortShrinks s t := by
  have hsingle {g : EscortRec → Option Cred} (hg : ∀ r, [f r].filterMap g = [r].filterMap g) (r : EscortRec) :
      g (f r) = g r := by
    have := hg r
    cases h1 : g (f r) <;> cases h2 : g r <;> simp_all [List.filterMap_cons]
  have hwaits : waitingVisitors t.escort.list = waitingVisitors s.escort.list := by
    rw [h, waitingVisitors, List.filterMap_map]
    exact congrArg (List.filterMap · s.escort.list) (funext (hsingle fun r => (hf r).1))
  have hcredits : creditedSponsors t.escort.list = creditedSponsors s.escort.list := by
    rw [h, creditedSponsors, List.filterMap_map]
    exact congrArg (List.filterMap · s.escort.list) (funext (hsingle fun r => (hf r).2))
  rw [EscortShrinks, hwaits, hcredits, h, List.length_map]
  exact ⟨Nat.le_refl _, .refl _, .refl _⟩

theorem setPhase_shrinks (v : Cred) (ph : WaitPhase) (s : State) : EscortShrinks s (onEscort (setPhase v ph) s) := by
  refine EscortShrinks.map rfl fun r => ?_
  cases r with
  | wait x sp m st ph => dsimp only; split <;> exact ⟨rfl, rfl⟩
  | credit x m st => exact ⟨rfl, rfl⟩

theorem setWaitLane_shrinks (v : Cred) (l : Lane) (s : State) : EscortShrinks s (onEscort (setWaitLane v l) s) := by
  refine EscortShrinks.map rfl fun r => ?_
  cases r with
  | wait x sp m st ph => dsimp only; split <;> exact ⟨rfl, rfl⟩
  | credit x m st => exact ⟨rfl, rfl⟩

theorem dropWait_shrinks (v : Cred) (s : State) : EscortShrinks s (dropWait v s) := .filter list_dropWait

theorem dropCredit_shrinks (c : Cred) (s : State) : EscortShrinks s (dropCredit c s) := .filter list_dropCredit

/-! ## The operations -/

theorem offerPlace_shrinks (l : Lane) (s : State) : EscortShrinks s (offerPlace l s) := by
  unfold offerPlace
  (repeat' split) <;> first | exact .refl s | exact setPhase_shrinks _ _ s

theorem offerPlaces_shrinks (l : Lane) (s : State) : EscortShrinks s (offerPlaces l s) :=
  (offerPlace_shrinks l s).trans (offerPlace_shrinks l _)

theorem settleLane_shrinks (s : State) : EscortShrinks s (settleLane l s) :=
  (offerPlaces_shrinks l s).to_same (by simp [settleLane])

theorem afterWait_shrinks (s : State) : EscortShrinks s (afterWait l ph s) := by
  unfold afterWait
  split
  · exact settleLane_shrinks s
  · exact .of_same (by simp)

theorem backToReady_shrinks (s : State) : EscortShrinks s (backToReady l s) :=
  (EscortShrinks.of_same (by simp)).trans (offerPlaces_shrinks l _)

theorem expireWait_shrinks (v sp : Cred) (l : Lane) (s : State) : EscortShrinks s (expireWait v sp l s) :=
  (dropWait_shrinks v s).to_same (by simp [expireWait])

theorem expireCredit_shrinks (c : Cred) (l : Lane) (s : State) : EscortShrinks s (expireCredit c l s) :=
  (dropCredit_shrinks c s).to_same (by simp [expireCredit])

theorem timeoutWait_shrinks (s : State) : EscortShrinks s (timeoutWait v s) := by
  unfold timeoutWait
  split
  · exact (expireWait_shrinks _ _ _ s).trans (afterWait_shrinks _)
  · exact .refl s

theorem backToPending_shrinks (v : Cred) (s : State) : EscortShrinks s (backToPending v s) := by
  unfold backToPending
  split
  · split
    · dsimp only
      split
      · exact (expireWait_shrinks _ _ _ s).trans (settleLane_shrinks _)
      · exact expireWait_shrinks _ _ _ s
    · exact (setPhase_shrinks v .releasePending s).to_same (by simp)
  · exact .refl s

theorem moveWait_shrinks (s : State) : EscortShrinks s (moveWait v l s) := by
  have hlane := setWaitLane_shrinks v l s
  unfold moveWait
  split
  · refine EscortShrinks.trans ?_ (afterWait_shrinks _)
    split
    · exact (hlane.trans (backToPending_shrinks v _)).to_same (by simp)
    · exact hlane.to_same (by simp)
  · exact .refl s

theorem withdrawnByTable_shrinks (l : Lane) (s : State) : EscortShrinks (dropWait v s) (withdrawnByTable v l s) :=
  .of_same (by simp [withdrawnByTable])

/-- Where no WAIT of the visitor stands, the list is that without one. -/
theorem dropWait_list_of_none (h : s.waitOf v = none) : (dropWait v s).escort.list = s.escort.list := by
  rw [list_dropWait, List.filter_eq_self]
  intro r hr
  rw [waitOf_eq_none.mp h r hr]
  rfl

/-- Before a claim of the visitor is made, the list is at most that without the visitor's WAIT (log entry 31). -/
theorem endStale_shrinks (s : State) : EscortShrinks (dropWait v s) (endStale v l s) := by
  have htaken : EscortShrinks (dropWait v s) (dropWait v (takeWaitEnds v s)) := .refl _
  unfold endStale
  dsimp only
  split
  · split
    · exact htaken.trans (withdrawnByTable_shrinks _ _)
    · exact (htaken.trans (withdrawnByTable_shrinks _ _)).trans (afterWait_shrinks _)
  · rename_i hwait
    have hnone : (takeWaitEnds v s).waitOf v = none := by
      cases k : (takeWaitEnds v s).waitOf v with
      | none => rfl
      | some r =>
        cases r with
        | wait x sp m st ph => exact absurd k (hwait x sp m st ph)
        | credit x m st => exact absurd (List.find?_some k) (by simp [isWaitOf])
    exact .of_list (dropWait_list_of_none hnone)

theorem expireAll_shrinks : ∀ (xs : List EscortRec) (s : State), EscortShrinks s (expireAll xs s)
  | [], s => .refl s
  | r :: rest, s => by
    unfold expireAll
    refine EscortShrinks.trans ?_ (expireAll_shrinks rest _)
    split
    · cases r with
      | wait x sp m st ph => exact expireWait_shrinks _ _ _ s
      | credit x m st => exact expireCredit_shrinks _ _ s
    · exact .refl s

theorem settleWaitLanes_shrinks : ∀ (xs : List EscortRec) (s : State), EscortShrinks s (settleWaitLanes xs s)
  | [], s => .refl s
  | .wait _ _ _ _ _ :: rest, s => (afterWait_shrinks s).trans (settleWaitLanes_shrinks rest _)
  | .credit _ _ _ :: rest, s => settleWaitLanes_shrinks rest s

theorem setEscort_shrinks {n : Nat} (s : State) : EscortShrinks s (setEscort p n s) := by
  unfold setEscort
  split
  · exact .of_same (by simp)
  · let u : State := { s with escort := { s.escort with interval := n } }
    have hexpired : EscortShrinks u (settleWaitLanes (s.escort.list.filter (EscortRec.expired u))
        (expireAll s.escort.list u)) := (expireAll_shrinks _ u).trans (settleWaitLanes_shrinks _ _)
    exact hexpired.to_same (by simp [u])

theorem refuseWait_shrinks (v : Cred) (l : Lane) (s : State) : EscortShrinks s (refuseWait v l s) :=
  (dropWait_shrinks v s).to_same (by simp [refuseWait])

theorem releaseInto_shrinks (e : Entry) (l : Lane) (s : State) : EscortShrinks s (releaseInto e l s) :=
  (dropWait_shrinks e.cred s).to_same (by simp [releaseInto])

theorem releaseAtTable_shrinks (s : State) : EscortShrinks s (releaseAtTable v l s) := by
  have hrefuse : EscortShrinks s (settleLane l (refuseWait v l s)) := (refuseWait_shrinks v l s).trans (settleLane_shrinks _)
  unfold releaseAtTable
  split
  · refine EscortShrinks.trans ?_ (settleLane_shrinks _)
    split
    · exact backToPending_shrinks v s
    · exact .refl s
  · split
    · exact ((backToPending_shrinks v s).to_same (by simp)).trans (settleLane_shrinks _)
    · split
      · split
        · exact (releaseInto_shrinks _ l s).to_same ((endEvent_keeps (by simp)).mpr (Block.same_refl _ _))
        · exact hrefuse
      · exact hrefuse

theorem withdrawWait_shrinks (s : State) : EscortShrinks s (withdrawWait v s) := by
  unfold withdrawWait
  split
  · exact ((dropWait_shrinks v s).trans (withdrawnByTable_shrinks _ s)).trans (afterWait_shrinks _)
  · exact .refl s

theorem removeCredit_shrinks (s : State) : EscortShrinks s (removeCredit c s) := by
  unfold removeCredit
  split
  · exact (dropCredit_shrinks c s).to_same (by simp)
  · exact .refl s

theorem clearList_shrinks {b : Bool} (s : State) : EscortShrinks s (clearList b s) :=
  (EscortShrinks.filter (t := onEscort (fun _ => []) s) (f := fun _ => false) (by simp [onEscort])).to_same
    (by simp [clearList])

theorem endWaitByDesk_shrinks (p : Port) (e : Entry) (g : Tag) (s : State) : EscortShrinks s (endWaitByDesk p e g s) := by
  unfold endWaitByDesk
  split
  · exact (dropWait_shrinks e.cred s).to_same (by simp)
  · exact .refl s

theorem afterDeskWait_shrinks {w : Option EscortRec} (s : State) : EscortShrinks s (afterDeskWait w s) := by
  unfold afterDeskWait
  split
  · exact afterWait_shrinks s
  · exact .refl s

theorem grantDesk_shrinks {d : DeskLookup} {e : Entry} {k : Bool} (s : State) :
    EscortShrinks s (grantDesk p d e k s) := by
  have hrecord : EscortShrinks s (deskRecord p d (some e) (some ⟨d.lane, (s.lane d.lane).nextSerial⟩) k none s) :=
    .of_same (by simp)
  unfold grantDesk
  dsimp only
  refine EscortShrinks.to_same ?_ ((endEvent_keeps (by simp)).mpr (Block.same_refl _ _))
  refine EscortShrinks.trans ?_ (afterDeskWait_shrinks _)
  exact (hrecord.trans (endWaitByDesk_shrinks p e ⟨d.lane, (s.lane d.lane).nextSerial⟩ _)).to_same (by simp)

theorem deskAtTable_shrinks {d : DeskLookup} (s : State) : EscortShrinks s (deskAtTable p d s) := by
  unfold deskAtTable
  split
  · exact (EscortShrinks.of_same (by simp)).trans (settleLane_shrinks _)
  · exact (EscortShrinks.of_same (by simp)).trans (settleLane_shrinks _)
  · exact grantDesk_shrinks s

/-! ## The lanes' operations that offer places -/

theorem alarmReset_shrinks (s : State) : EscortShrinks s (alarmReset p l s) := by
  unfold alarmReset
  dsimp only
  have hanswer {st : Status} : EscortShrinks s (answer p st [] s) := .of_same (by simp)
  split
  · exact hanswer
  · split
    · exact hanswer
    · refine EscortShrinks.to_same ?_ ((endEvent_keeps (by simp)).mpr (Block.same_refl _ _))
      split
      · exact hanswer.trans (backToReady_shrinks _)
      · exact .of_same (by simp)

theorem modeChanged_shrinks {x y : Mode} (s : State) : EscortShrinks s (modeChanged l x y s) := by
  have hclosed : EscortShrinks s (closeDirections l (loses x y) s) := .of_same (by simp)
  unfold modeChanged
  dsimp only
  split
  · exact hclosed.trans (offerPlaces_shrinks l _)
  · exact hclosed

theorem applySettings_shrinks {x : LaneSettings} (s : State) : EscortShrinks s (applySettings l x s) := by
  have hset : EscortShrinks s (s.onLane l (fun u => { u with settings := x })) := .refl s
  have hmode := fun y z => hset.trans (modeChanged_shrinks (l := l) (x := y) (y := z) _)
  unfold applySettings
  dsimp only
  refine EscortShrinks.to_same ?_ ((endEvent_keeps (by simp)).mpr (Block.same_refl _ _))
  split
  · exact (hmode _ _).trans (backToReady_shrinks _)
  · exact hmode _ _

theorem setLane_shrinks {k : LaneChange} (s : State) : EscortShrinks s (setLane p l k s) := by
  unfold setLane
  split
  · exact .of_same (by simp)
  · exact (EscortShrinks.of_same (by simp)).trans (applySettings_shrinks (answer p .ok [] s))

theorem bankModeChanged_shrinks {x y : Mode} : ∀ (ls : List Lane) (s : State),
    EscortShrinks s (bankModeChanged x y ls s)
  | [], s => .refl s
  | m :: rest, s => by
    unfold bankModeChanged
    refine EscortShrinks.trans ?_ (bankModeChanged_shrinks rest _)
    split
    · exact (modeChanged_shrinks (l := m) s).to_same ((endEvent_keeps (by simp)).mpr (Block.same_refl _ _))
    · exact .refl s

theorem removeWindow_shrinks {w : Window} {r : PostingResult} (s : State) : EscortShrinks s (removeWindow l w r s) := by
  unfold removeWindow
  exact (EscortShrinks.of_same (by simp)).trans (settleLane_shrinks _)

theorem moduleAgreed_shrinks (s : State) : EscortShrinks s (moduleAgreed l s) := by
  unfold moduleAgreed
  dsimp only
  refine EscortShrinks.to_same ?_ ((endEvent_keeps (by simp)).mpr (Block.same_refl _ _))
  (repeat' split)
  · exact .of_same (by simp)
  · exact backToReady_shrinks s
  · exact .refl s

theorem settleRound_shrinks {x : Slot} {b : Bool} {q : Option Profile} (s : State) :
    EscortShrinks s (settleRound l x b q s) := by
  unfold settleRound
  split
  · exact (EscortShrinks.of_same (by simp)).trans (moduleAgreed_shrinks _)
  · exact .of_same (by simp)

theorem startDecision_escort {y : Presentation} (s : State) : Block.escort.same s (startDecision l y s) := by
  have hrefused {d : Direction} {x : Cred} (k : Verdict) (hk : verdictEffect l d k = id) :
      Block.escort.same s (giveVerdict l d x k s) := by
    unfold giveVerdict
    dsimp only
    rw [hk]
    (repeat' split) <;> simp
  have hlane {d : Direction} : verdictEffect l d (laneRefusal s l) = id := by
    unfold laneRefusal
    split <;> rfl
  unfold startDecision
  (repeat' split)
  · simp
  · exact (endEvent_keeps (by simp)).mpr (hrefused _ hlane)
  · exact (endEvent_keeps (by simp)).mpr (hrefused _ rfl)
  · simp

theorem takePolled_escort {x : Slot} {g : GoodReply} (s : State) : Block.escort.same s (takePolled l x g s) := by
  unfold takePolled takePresentation
  (repeat' split) <;> first | exact startDecision_escort s | simp

theorem takeGood_shrinks {a : Await} {g : GoodReply} (s : State) : EscortShrinks s (takeGood l a g s) := by
  unfold takeGood
  split
  · exact settleRound_shrinks s
  · exact settleRound_shrinks s
  · exact .refl s
  · exact (EscortShrinks.of_same (by simp)).to_same (takePolled_escort _)
  · dsimp only
    split
    · exact (settleRound_shrinks s).to_same (takePolled_escort _)
    · exact settleRound_shrinks s

theorem goodReply_shrinks {r : RawReply} {coll : Collisions} {kind : GoodReply → Bool} (s : State) :
    EscortShrinks s (goodReply l r coll kind s) := by
  have hline (f : LineUnit → LineUnit) : EscortShrinks s (s.onLine l f) := .refl s
  unfold goodReply
  (repeat' split) <;> try exact .refl s
  unfold afterAwait Await.unlessVoid
  dsimp only
  refine EscortShrinks.to_same ?_ ((runSlots_keeps (by simp)).mpr (Block.same_refl _ _))
  split
  · exact hline _
  · exact (hline _).trans (takeGood_shrinks _)

/-! ## The operations that make a record -/

theorem nodup_concat {α : Type} {xs : List α} {x : α} (h : xs.Nodup) (hx : x ∉ xs) : (xs ++ [x]).Nodup :=
  List.nodup_append.mpr ⟨h, List.nodup_cons.mpr ⟨List.not_mem_nil, List.nodup_nil⟩, fun y hy z hz => by
    obtain rfl := List.mem_singleton.mp hz
    exact fun hyx => hx (hyx ▸ hy)⟩

/-- The list with a WAIT of a visitor who had none, made where there was room (R39, R82). -/
theorem appendWait_keeps {m : Lane} {started : Nat} {k : WaitPhase} (hshrinks : EscortShrinks s t)
    (hroom : t.escort.list.length < Config.escortCapacity) (hnone : t.waitOf v = none)
    (hlist : u.escort.list = t.escort.list ++ [.wait v sp m started k]) : KeepsEscort s u := by
  refine ⟨fun _ => ?_, fun hs => ?_⟩
  · rw [EscortLaw, hlist, List.length_append, List.length_singleton]
    exact hroom
  · obtain ⟨hwaits, hcredits⟩ := hshrinks.keeps.2 hs
    have hv : v ∉ waitingVisitors t.escort.list := by
      intro hmem
      obtain ⟨r, hr, hrv⟩ := List.mem_filterMap.mp hmem
      have := waitOf_eq_none.mp hnone r hr
      cases r with
      | wait x sp' n st ph => simp_all [isWaitOf]
      | credit x n st => cases hrv
    rw [EscortNamesLaw, hlist]
    refine ⟨?_, ?_⟩
    · rw [waitingVisitors, List.filterMap_append]
      exact nodup_concat hwaits hv
    · simpa [creditedSponsors] using hcredits

/-- The list with a credit of a sponsor who had none, made where there was room (R82, R84). -/
theorem appendCredit_keeps {m : Lane} {started : Nat} (hshrinks : EscortShrinks s t)
    (hroom : EscortLaw s → t.escort.list.length < Config.escortCapacity) (hnone : t.hasCredit c = false)
    (hlist : u.escort.list = t.escort.list ++ [.credit c m started]) : KeepsEscort s u := by
  refine ⟨fun hs => ?_, fun hs => ?_⟩
  · rw [EscortLaw, hlist, List.length_append, List.length_singleton]
    exact hroom hs
  · obtain ⟨hwaits, hcredits⟩ := hshrinks.keeps.2 hs
    have hc : c ∉ creditedSponsors t.escort.list := by
      intro hmem
      obtain ⟨r, hr, hrc⟩ := List.mem_filterMap.mp hmem
      have := List.any_eq_false.mp hnone r hr
      cases r with
      | wait x sp' n st ph => cases hrc
      | credit x n st => simp_all [isCreditOf]
    rw [EscortNamesLaw, hlist]
    refine ⟨?_, ?_⟩
    · simpa [waitingVisitors] using hwaits
    · rw [creditedSponsors, List.filterMap_append]
      exact nodup_concat hcredits hc

/-- A list that has a credit of the sponsor is longer than that without it. -/
theorem length_dropCredit_lt (h : s.hasCredit c = true) : (dropCredit c s).escort.list.length < s.escort.list.length := by
  obtain ⟨r, hr, hrc⟩ := List.any_eq_true.mp h
  rw [list_dropCredit]
  exact List.length_filter_lt_length_iff_exists.mpr ⟨r, hr, by simp [hrc]⟩

theorem sponsorCredit_keepsEscort : KeepsEscort s (sponsorCredit c l s) := by
  unfold sponsorCredit
  split
  · rename_i hcredit
    exact appendCredit_keeps (dropCredit_shrinks c s) (fun hs => Nat.lt_of_lt_of_le (length_dropCredit_lt hcredit) hs)
      hasCredit_dropCredit rfl
  · rename_i hcredit
    split
    · rename_i hroom
      split
      · exact (EscortShrinks.refl s).keeps
      · exact appendCredit_keeps (.refl s) (fun _ => hroom) (by simpa using hcredit) rfl
    · exact (EscortShrinks.refl s).keeps

theorem KeepsEscort.trans (h : KeepsEscort s t) (k : KeepsEscort t u) : KeepsEscort s u :=
  ⟨fun hs => k.1 (h.1 hs), fun hs => k.2 (h.2 hs)⟩

theorem sponsorPassage_keepsEscort {x : HandedPassage} : KeepsEscort s (sponsorPassage x s) := by
  unfold sponsorPassage
  split
  · refine (sponsorCredit_keepsEscort (c := x.cred) (l := x.lane)).trans (EscortShrinks.keeps ?_)
    refine EscortShrinks.to_same ?_ (settleOuter_keeps (by simp) |>.mpr (Block.same_refl _ _))
    exact list_releaseWaits
      (P := fun xs => EscortShrinks (sponsorCredit x.cred x.lane s) (onEscort (fun _ => xs) s))
      (fun v xs h => h.trans (setPhase_shrinks v .releasePending (onEscort (fun _ => xs) s))) (.refl _)
  · exact (EscortShrinks.refl s).keeps

/-- The verdict of a lookup that makes a WAIT found room for it (R39). -/
theorem escortRoom_of_await {y : Presentation} {e : Entry} {k : Bool} (h : lookupVerdict s l y = .await e k) :
    escortRoom s e.cred = true := by
  unfold lookupVerdict at h
  split at h
  · unfold laneRefusal at h; split at h <;> cases h
  · split at h
    · cases h
    · rename_i x hx
      have hclaim (v : Verdict) (hv : claimCheck s x l y.dir = some v) : v ≠ .await e k := by
        unfold claimCheck at hv
        rintro rfl
        (repeat' split at hv) <;> simp_all
      cases hc : claimCheck s x l y.dir with
      | some v => exact absurd (by simpa [hc] using h) (hclaim v hc)
      | none =>
        simp only [hc, Option.getD_none, weigh] at h
        (repeat' split at h) <;> try cases h
        unfold escortCheck at h
        (repeat' split at h) <;> cases h <;> assumption

/-- A presentation's lookup makes a WAIT where there is room and none of the visitor stands, or makes no record (R39). -/
theorem lookupAtTable_keepsEscort {y : Presentation} : KeepsEscort s (lookupAtTable l y s) := by
  have hbefore : EscortShrinks s (verdictRecord l y.dir y.cred (lookupVerdict s l y) (clearDecision l s)) :=
    .of_same (by simp)
  have heffect : KeepsEscort s (verdictEffect l y.dir (lookupVerdict s l y)
      (verdictRecord l y.dir y.cred (lookupVerdict s l y) (clearDecision l s))) := by
    generalize hu : verdictRecord l y.dir y.cred (lookupVerdict s l y) (clearDecision l s) = u at hbefore ⊢
    have hescort : u.escort = s.escort := by rw [← hu]; rfl
    have hstale (v : Cred) := hbefore.trans ((dropWait_shrinks v u).trans (endStale_shrinks (v := v) (l := l) u))
    unfold verdictEffect
    split
    · rename_i e k _
      exact (hstale e.cred).keeps.trans (EscortShrinks.of_same (by simp)).keeps
    · rename_i e k hv
      refine appendWait_keeps (hstale e.cred) (Nat.lt_of_le_of_lt (endStale_shrinks u).1 ?_) waitOf_endStale rfl
      rw [list_dropWait, hescort]
      exact of_decide_eq_true (escortRoom_of_await hv)
    · exact (hbefore.trans (moveWait_shrinks u)).keeps
    · exact hbefore.keeps
  have hgiven : KeepsEscort s (giveVerdict l y.dir y.cred (lookupVerdict s l y) (clearDecision l s)) := by
    unfold giveVerdict
    dsimp only
    refine heffect.trans (EscortShrinks.keeps ?_)
    (repeat' split) <;> exact .of_same (by simp)
  unfold lookupAtTable
  dsimp only
  split
  · exact hgiven.trans (EscortShrinks.of_same (by simp)).keeps
  · exact hgiven.trans (settleLane_shrinks _).keeps

/-! ## Every command -/

/-- A command whose footprint leaves the escort unit. -/
theorem KeepsEscort.of_frame {c : Instr} (hc : Block.escort ∉ footprint c) (hs : exec c s = .next t) : KeepsEscort s t :=
  (EscortShrinks.of_same (commandsKeepFrame c s t hs .escort hc)).keeps

theorem KeepsEscort.of_running (hu : KeepsEscort s u) (hs : running s u = .next t) : KeepsEscort s t :=
  running_keeps hs (EscortShrinks.refl s).keeps hu

theorem keepsEscort_of_nil (h : t.escort.list = []) : KeepsEscort s t := by
  refine ⟨fun _ => ?_, fun _ => ?_⟩
  · rw [EscortLaw, h]
    exact Nat.zero_le _
  · rw [EscortNamesLaw, h]
    exact ⟨List.nodup_nil, List.nodup_nil⟩

theorem leaveReset_escort {straps : BitVec 5} : Block.escort.same s (leaveReset straps s) := by
  rw [leaveReset, compareInput_keeps (by decide), resumeSafety_keeps (by simp), readStraps_keeps (by decide)]
  rfl

theorem atLane_shrinks {x : Byte} {f : Lane → State → State} (hf : ∀ m t, EscortShrinks t (f m t)) (s : State) :
    EscortShrinks s (atLane p x f s) := by
  have htaken : EscortShrinks s (takeRequest p s) := .of_same (by simp)
  unfold atLane takenByBlock
  split
  · exact htaken.trans (hf _ _)
  · exact htaken.to_same (by simp)

/-- Every command keeps the laws of the escort list: those that touch it by the lemma of their operation, the others by
their frame. -/
theorem exec_keepsEscort {c : Instr} (hs : exec c s = .next t) : KeepsEscort s t := by
  cases c with
  | powerOn straps high =>
    have hescort : t.escort = .reset := powerOn_same hs (b := .escort) (by decide)
    exact keepsEscort_of_nil (by rw [hescort]; rfl)
  | warmReset => injection hs with hs; exact hs ▸ keepsEscort_of_nil rfl
  | leaveWarmReset straps =>
    injection hs with hs
    subst hs
    split
    · exact (EscortShrinks.of_same leaveReset_escort).keeps
    · exact (EscortShrinks.refl s).keeps
  | bankReset p straps =>
    refine KeepsEscort.of_running ?_ hs
    split
    · exact (keepsEscort_of_nil rfl : KeepsEscort s (enterReset s)).trans (EscortShrinks.of_same leaveReset_escort).keeps
    · exact (EscortShrinks.refl s).keeps
  | presentationLookup =>
    refine KeepsEscort.of_running ?_ hs
    (repeat' split)
    · exact (lookupAtTable_keepsEscort : KeepsEscort (popSecond s) _)
    · exact (EscortShrinks.refl s).keeps
    · exact (EscortShrinks.refl s).keeps
  | sponsorPassage l =>
    refine KeepsEscort.of_running ?_ hs
    split
    · exact (sponsorPassage_keepsEscort : KeepsEscort (s.onMail _) _)
    · exact (EscortShrinks.refl s).keeps
  | setLane p =>
    refine KeepsEscort.of_running (EscortShrinks.keeps ?_) hs
    split <;> first | exact .refl s | exact atLane_shrinks (fun _ => setLane_shrinks) s
  | alarmReset p =>
    refine KeepsEscort.of_running (EscortShrinks.keeps ?_) hs
    split <;> first | exact .refl s | exact atLane_shrinks (fun _ => alarmReset_shrinks) s
  | setBankMode p =>
    have htaken : EscortShrinks s (takeRequest p s) := .of_same (by simp)
    refine KeepsEscort.of_running (EscortShrinks.keeps ?_) hs
    unfold takenByBlock
    (repeat' split)
    · exact (htaken.to_same (u := answer p .ok [] { takeRequest p s with bank := _ }) rfl).trans
        (bankModeChanged_shrinks _ _)
    · exact htaken.to_same (by simp)
    · exact .refl s
  | setEscort p =>
    refine KeepsEscort.of_running (EscortShrinks.keeps ?_) hs
    split
    · exact (EscortShrinks.of_same (by simp)).trans (setEscort_shrinks (takeRequest p s))
    · exact .refl s
  | idleReply l r coll | presentationReply l r coll | senseReply l r coll | profileReply l r coll =>
    exact KeepsEscort.of_running (goodReply_shrinks s).keeps hs
  | freeRestoreClearExpiry l =>
    refine KeepsEscort.of_running (EscortShrinks.keeps ?_) hs
    split
    · exact (backToReady_shrinks s).to_same ((endEvent_keeps (by simp)).mpr (Block.same_refl _ _))
    · exact .refl s
  | clearTimerExpiry l =>
    refine KeepsEscort.of_running (EscortShrinks.keeps ?_) hs
    split
    · refine EscortShrinks.to_same ?_ ((endEvent_keeps (by simp)).mpr (Block.same_refl _ _))
      split
      · exact .refl s
      · exact backToReady_shrinks s
    · exact .refl s
  | windowRemoval l =>
    refine KeepsEscort.of_running (EscortShrinks.keeps ?_) hs
    dsimp only
    (repeat' split) <;> first | exact .refl s | exact (removeWindow_shrinks _ : EscortShrinks (s.onMail _) _)
  | escortLockdown =>
    refine KeepsEscort.of_running (EscortShrinks.keeps ?_) hs
    split
    · exact .refl s
    · exact (clearList_shrinks (b := true) (s.onMail _) : EscortShrinks (s.onMail _) _).to_same
        ((endEvents_keeps (by simp)).mpr (Block.same_refl _ _))
  | escortEgressClear =>
    refine KeepsEscort.of_running (EscortShrinks.keeps ?_) hs
    split
    · exact .refl s
    · exact (clearList_shrinks _ : EscortShrinks (s.onMail _) _)
  | escortRelease =>
    refine KeepsEscort.of_running (EscortShrinks.keeps ?_) hs
    split
    · exact (releaseAtTable_shrinks _ : EscortShrinks (popSecond s) _)
    · exact .refl s
  | deskPassLookup p =>
    refine KeepsEscort.of_running (EscortShrinks.keeps ?_) hs
    (repeat' split) <;> try exact .refl s
    exact (EscortShrinks.of_same (by simp)).trans (deskAtTable_shrinks _)
  | laneReleaseNotice l =>
    refine KeepsEscort.of_running (EscortShrinks.keeps ?_) hs
    split
    · exact (settleLane_shrinks _ : EscortShrinks (s.onMail _) _)
    · exact .refl s
  | escortWaitExpiry x =>
    refine KeepsEscort.of_running (EscortShrinks.keeps ?_) hs
    (repeat' split) <;> first | exact .refl s | exact timeoutWait_shrinks s
  | creditExpiry x =>
    refine KeepsEscort.of_running (EscortShrinks.keeps ?_) hs
    (repeat' split) <;> first | exact .refl s | exact expireCredit_shrinks _ _ s
  | escortEndMessage =>
    refine KeepsEscort.of_running (EscortShrinks.keeps ?_) hs
    split
    · exact (withdrawWait_shrinks _ : EscortShrinks (s.onMail _) _)
    · exact (removeCredit_shrinks _ : EscortShrinks (s.onMail _) _)
    · exact .refl s
  | _ =>
    exact KeepsEscort.of_frame (by simp [footprint, answered, stateChange, laneEnding]) hs

end Sys2Proof.Machine
end

section
/-!
PROOFS. Every step keeps the call queue (R99, R108) and the journal ring (R171) within their room.
-/
namespace Sys2Proof.Machine

variable {s t u : State} {l : Lane} {p : Port}

/-! ## The call queue -/

theorem CallsLaw.of_same (h : CallsLaw s) (k : Block.dispatch.same s t) : CallsLaw t := by
  have hk : t.dispatch = s.dispatch := k
  rw [CallsLaw, hk]
  exact h

@[simp] theorem setCalls_dispatch (q : List CallRec) (s : State) :
    (setCalls q s).dispatch = { s.dispatch with queue := q } := by
  unfold setCalls
  dsimp only
  split <;> rfl

theorem setCalls_calls {q : List CallRec} (h : CallsLaw s) (hq : q.length ≤ Config.callCapacity) :
    CallsLaw (setCalls q s) := by
  rw [CallsLaw, setCalls_dispatch]
  exact ⟨hq, h.2⟩

theorem countLoss_calls (h : CallsLaw s) : CallsLaw (countLoss s) := ⟨h.1, saturate_le _⟩

/-- A CALL joins a queue that has room, or is counted lost (R101, R108). -/
theorem postCall_calls {w : Window} (h : CallsLaw s)
    (hroom : w.call = .posted → s.dispatch.queue.length < Config.callCapacity) : CallsLaw (postCall w s) := by
  unfold postCall
  split
  · rename_i hposted _
    refine setCalls_calls h ?_
    rw [List.length_append, List.length_singleton]
    exact hroom hposted
  · exact (countLoss_calls h).of_same (by simp)
  · exact h

/-- A new window's CALL is posted only to a queue with room (R101). -/
theorem room_of_newCallState {e : Entry} {d : Direction} (h : newCallState s e d = .posted) :
    s.dispatch.queue.length < Config.callCapacity := by
  unfold newCallState at h
  (repeat' split at h) <;> first | assumption | cases h

theorem createWindow_calls {e : Entry} {d : Direction} {o : Origin} {k : Bool} (h : CallsLaw s) :
    CallsLaw (createWindow l e d o k s) := by
  have hposted : CallsLaw (postCall (newWindow s l e d o k) s) := postCall_calls h room_of_newCallState
  exact hposted.of_same (by simp [createWindow])

theorem lookupAtTable_calls {y : Presentation} (h : CallsLaw s) : CallsLaw (lookupAtTable l y s) := by
  have hrecord : CallsLaw (verdictRecord l y.dir y.cred (lookupVerdict s l y) (clearDecision l s)) :=
    h.of_same (by simp)
  have heffect : CallsLaw (verdictEffect l y.dir (lookupVerdict s l y)
      (verdictRecord l y.dir y.cred (lookupVerdict s l y) (clearDecision l s))) := by
    unfold verdictEffect
    split
    · exact createWindow_calls (hrecord.of_same (by simp))
    · exact hrecord.of_same (by simp)
    · exact hrecord.of_same (by simp)
    · exact hrecord
  have hgiven : CallsLaw (giveVerdict l y.dir y.cred (lookupVerdict s l y) (clearDecision l s)) := by
    unfold giveVerdict
    dsimp only
    (repeat' split) <;> exact heffect.of_same (by simp)
  unfold lookupAtTable
  dsimp only
  split <;> exact hgiven.of_same (by simp)

theorem releaseAtTable_calls {v : Cred} (h : CallsLaw s) : CallsLaw (releaseAtTable v l s) := by
  have hinto (e : Entry) : CallsLaw (endEvent l (releaseInto e l s)) := by
    have hmade : CallsLaw (releaseInto e l s) := createWindow_calls (h.of_same (by simp))
    exact hmade.of_same (by simp)
  unfold releaseAtTable
  split
  · exact h.of_same (by simp)
  · split
    · exact h.of_same (by simp)
    · split
      · split
        · exact hinto _
        · exact h.of_same (by simp)
      · exact h.of_same (by simp)

theorem deskAtTable_calls {d : DeskLookup} (h : CallsLaw s) : CallsLaw (deskAtTable p d s) := by
  unfold deskAtTable
  split
  · exact h.of_same (by simp)
  · exact h.of_same (by simp)
  · rename_i e k _
    have hmade (u : State) (hu : Block.dispatch.same s u) : CallsLaw (createWindow d.lane e d.dir .deskPass k u) :=
      createWindow_calls (h.of_same hu)
    refine (hmade (endWaitByDesk p e ⟨d.lane, (s.lane d.lane).nextSerial⟩
      (deskRecord p d (some e) (some ⟨d.lane, (s.lane d.lane).nextSerial⟩) k none s)) (by simp)).of_same ?_
    simp [grantDesk]

theorem endCall_calls {w : Window} (h : CallsLaw s) : CallsLaw (endCall w s) := by
  have hcancel : CallsLaw (postCancel w s) := by
    unfold postCancel
    split
    · rename_i hroom
      refine setCalls_calls h ?_
      rw [List.length_append, List.length_singleton]
      exact hroom
    · exact (countLoss_calls h).of_same (by simp)
  unfold endCall
  split
  · exact setCalls_calls h (Nat.le_trans (List.length_filter_le ..) h.1)
  all_goals first | exact h | (split <;> first | exact h | exact hcancel)

theorem removeWindow_calls {w : Window} {r : PostingResult} (h : CallsLaw s) : CallsLaw (removeWindow l w r s) := by
  have hended : CallsLaw (endCall w (s.onLane l (fun u => { u with windows := u.windows.filter (fun x => x.tag != w.tag) }))) :=
    endCall_calls h
  exact hended.of_same (by simp [removeWindow])

theorem dispatchSettings_keeps {x y z : Option Byte} {d d' : DispatchUnit} (h : dispatchSettings d x y z = some d') :
    d'.queue = d.queue ∧ d'.loss = d.loss := by
  simp only [dispatchSettings, Option.bind_eq_some_iff] at h
  obtain ⟨_, _, _, _, _, _, h⟩ := h
  cases h
  exact ⟨rfl, rfl⟩

theorem setDispatch_calls {x y z : Option Byte} (h : CallsLaw s) : CallsLaw (setDispatch p x y z s) := by
  unfold setDispatch
  split
  · exact h.of_same (by simp)
  · rename_i d hd
    obtain ⟨hqueue, hloss⟩ := dispatchSettings_keeps hd
    have hset : CallsLaw { s with dispatch := d } := by
      rw [CallsLaw, hqueue, hloss]
      exact h
    dsimp only
    split <;> exact hset.of_same (by simp)

theorem dispatchStatus_calls (h : CallsLaw s) : CallsLaw (dispatchStatus p s) := by
  unfold dispatchStatus
  dsimp only
  split
  · exact ⟨h.1, Nat.zero_le _⟩
  · exact h.of_same (by simp)

theorem takeCalls_calls (h : CallsLaw s) : CallsLaw (takeCalls p s) := by
  have hleft : CallsLaw (setCalls (s.dispatch.queue.drop Config.recordsPerRead) s) :=
    setCalls_calls h ((by rw [List.length_drop]; exact Nat.le_trans (Nat.sub_le ..) h.1))
  exact hleft.of_same (by simp [takeCalls])

theorem timeoutCall_calls {w : Window} (h : CallsLaw s) : CallsLaw (timeoutCall l w s) := by
  have hdropped : CallsLaw (dropCall w.tag s) := setCalls_calls h (Nat.le_trans (List.length_filter_le ..) h.1)
  unfold timeoutCall
  split
  · exact hdropped.of_same (by simp)
  · exact h.of_same (by simp)
  · exact h

/-- Every command keeps the law of the call queue: those that touch the dispatch unit by the lemma of their operation,
the others by their frame. -/
theorem exec_calls {c : Instr} (h : CallsLaw s) (hs : exec c s = .next t) : CallsLaw t := by
  have htaken (p : Port) : CallsLaw (takeRequest p s) := h.of_same (by simp)
  have hnone {u : State} (hu : u.dispatch.queue = [] ∧ u.dispatch.loss = 0) : CallsLaw u := by
    rw [CallsLaw, hu.1, hu.2]
    exact ⟨Nat.zero_le _, Nat.zero_le _⟩
  have hleave {u : State} {straps : BitVec 5} (hu : CallsLaw u) : CallsLaw (leaveReset straps u) := by
    refine hu.of_same ?_
    rw [leaveReset, compareInput_keeps (by decide), resumeSafety_keeps (by simp), readStraps_keeps (by decide)]
    rfl
  cases c with
  | powerOn straps high =>
    have hdispatch : t.dispatch = .reset := powerOn_same hs (b := .dispatch) (by decide)
    exact hnone (by rw [hdispatch]; exact ⟨rfl, rfl⟩)
  | warmReset => injection hs with hs; exact hs ▸ hnone ⟨rfl, rfl⟩
  | leaveWarmReset straps =>
    injection hs with hs
    subst hs
    split <;> first | exact h | exact hleave h
  | bankReset p straps =>
    refine running_keeps hs h ?_
    split
    · exact hleave (hnone (u := enterReset s) ⟨rfl, rfl⟩)
    · exact h
  | presentationLookup =>
    refine running_keeps hs h ?_
    (repeat' split) <;> first | exact h | exact lookupAtTable_calls h
  | escortRelease =>
    refine running_keeps hs h ?_
    split <;> first | exact h | exact releaseAtTable_calls h
  | deskPassLookup p =>
    refine running_keeps hs h ?_
    (repeat' split) <;> try exact h
    exact deskAtTable_calls (h.of_same (by simp))
  | windowRemoval l =>
    refine running_keeps hs h ?_
    dsimp only
    (repeat' split) <;> first | exact h | exact removeWindow_calls h
  | takeCalls p =>
    refine running_keeps hs h ?_
    split <;> first | exact h | exact takeCalls_calls (htaken p)
  | setDispatch p =>
    refine running_keeps hs h ?_
    split <;> first | exact h | exact setDispatch_calls (htaken p)
  | dispatchStatus p =>
    refine running_keeps hs h ?_
    split <;> first | exact h | exact dispatchStatus_calls (htaken p)
  | callTimerExpiry g =>
    refine running_keeps hs h ?_
    (repeat' split) <;> first | exact h | exact timeoutCall_calls h
  | _ =>
    exact h.of_same (commandsKeepFrame _ s t hs .dispatch
      (by simp [footprint, answered, stateChange, laneEnding, laneReturn]))

/-! ## The journal ring -/

theorem RingLaw.of_same (h : RingLaw s) (k : Block.journal.same s t) : RingLaw t := by
  have hk : t.journal = s.journal := k
  rw [RingLaw, hk]
  exact h

theorem makeRoom_length {ring : List RingRec} (h : ring.length ≤ Config.ringCapacity) :
    (makeRoom ring).length < Config.ringCapacity := by
  unfold makeRoom
  have hpos : 0 < Config.ringCapacity := by decide
  split
  · rw [List.length_tail]
    omega
  · omega

theorem mem_makeRoom {ring : List RingRec} {r : RingRec} (h : r ∈ makeRoom ring) : r ∈ ring := by
  unfold makeRoom at h
  split at h
  · exact List.mem_of_mem_tail h
  · exact h

theorem chargeLoss_le {d : RingRec} {lost : PerPort Nat} (h : ∀ p, lost.get p ≤ Config.counterMax) (p : Port) :
    (chargeLoss d lost).get p ≤ Config.counterMax := by
  rw [chargeLoss, PerPort.get_tabulate]
  split
  · exact saturate_le _
  · exact h p

/-- A record joins the ring with its owed set, which is not empty (R170, R172). -/
theorem appendRecord_ring {r : Record} (h : RingLaw s) : RingLaw (appendRecord r s) := by
  obtain ⟨hlength, howed, hlost⟩ := h
  unfold appendRecord
  split
  · rename_i hr
    rw [RingLaw, show ∀ u : State, (setJournal (s.journal.join r) u).journal = s.journal.join r from fun _ => rfl]
    refine ⟨?_, fun x hx => ?_, fun p => ?_⟩
    · have := makeRoom_length hlength
      simp only [JournalUnit.join, List.length_append, List.length_singleton]
      omega
    · rcases List.mem_append.mp hx with hx | hx
      · exact howed x (mem_makeRoom hx)
      · rw [List.mem_singleton.mp hx]
        exact hr
    · simp only [JournalUnit.join]
      split
      · exact chargeLoss_le hlost p
      · exact hlost p
  · exact ⟨hlength, howed, hlost⟩

theorem readOut_length (p : Port) : ∀ (n : Nat) (ring : List RingRec), (readOut p n ring).length ≤ ring.length
  | _, [] => by simp [readOut]
  | 0, _ :: _ => by simp [readOut]
  | n + 1, r :: rest => by
    have hnext := readOut_length p n rest
    have hkept := readOut_length p (n + 1) rest
    unfold readOut
    dsimp only
    (repeat' split) <;> simp only [List.length_cons] <;> omega

/-- What a read leaves in the ring is still owed to some port (R173). -/
theorem readOut_owed (p : Port) : ∀ (n : Nat) (ring : List RingRec), (∀ r ∈ ring, owedAny r.owed = true) →
    ∀ r ∈ readOut p n ring, owedAny r.owed = true
  | _, [], h => by simpa [readOut] using h
  | 0, _ :: _, h => by simpa [readOut] using h
  | n + 1, x :: rest, h => by
    have hx := h x (List.mem_cons_self ..)
    have hrest : ∀ r ∈ rest, owedAny r.owed = true := fun r hr => h r (List.mem_cons_of_mem _ hr)
    have hnext := readOut_owed p n rest hrest
    have hkept := readOut_owed p (n + 1) rest hrest
    unfold readOut
    dsimp only
    (repeat' split)
    · rename_i hleft
      exact List.forall_mem_cons.mpr ⟨hleft, hnext⟩
    · exact hnext
    · exact List.forall_mem_cons.mpr ⟨hx, hkept⟩

theorem readJournal_ring {x : Byte} (h : RingLaw s) : RingLaw (readJournal p x s) := by
  obtain ⟨hlength, howed, hlost⟩ := h
  unfold readJournal
  split
  · exact ⟨hlength, howed, hlost⟩
  · exact ⟨Nat.le_trans (readOut_length ..) hlength, readOut_owed _ _ _ howed, hlost⟩

theorem subscribe_ring {x : BitVec 16} (h : RingLaw s) : RingLaw (subscribe p x s) := by
  unfold subscribe
  split <;> exact h

theorem journalStatus_ring (h : RingLaw s) : RingLaw (journalStatus p s) := by
  obtain ⟨hlength, howed, hlost⟩ := h
  refine ⟨hlength, howed, fun q => ?_⟩
  change (s.journal.lost.set p 0).get q ≤ _
  by_cases hq : q = p
  · rw [hq, PerPort.get_set_self]
    exact Nat.zero_le _
  · rw [PerPort.get_set_ne _ _ hq]
    exact hlost q

/-- Every command keeps the law of the ring: those that touch the journal unit by the lemma of their operation, the others
by their frame. -/
theorem exec_ring {c : Instr} (h : RingLaw s) (hs : exec c s = .next t) : RingLaw t := by
  have htaken (p : Port) : RingLaw (takeRequest p s) := h.of_same (by simp)
  have hnone {u : State} (hring : u.journal.ring = []) (hlost : u.journal.lost = .fill 0) : RingLaw u := by
    rw [RingLaw, hring, hlost]
    exact ⟨Nat.zero_le _, fun r hr => absurd hr List.not_mem_nil, fun p => by rw [PerPort.get_fill]; exact Nat.zero_le _⟩
  have hleave {u : State} {straps : BitVec 5} (hu : RingLaw u) : RingLaw (leaveReset straps u) := by
    refine hu.of_same ?_
    rw [leaveReset, compareInput_keeps (by decide), resumeSafety_keeps (by simp), readStraps_keeps (by decide)]
    rfl
  cases c with
  | powerOn straps high =>
    have hjournal : t.journal = .reset := powerOn_same hs (b := .journal) (by decide)
    exact hnone (by rw [hjournal]; rfl) (by rw [hjournal]; rfl)
  | warmReset => injection hs with hs; exact hs ▸ hnone rfl rfl
  | leaveWarmReset straps =>
    injection hs with hs
    subst hs
    split <;> first | exact h | exact hleave h
  | bankReset p straps =>
    refine running_keeps hs h ?_
    split
    · exact hleave (hnone (u := enterReset s) rfl rfl)
    · exact h
  | journalAppend src =>
    refine running_keeps hs h ?_
    split <;> first | exact h | exact appendRecord_ring h
  | readJournal p =>
    refine running_keeps hs h ?_
    split <;> first | exact h | exact readJournal_ring (htaken p)
  | subscribe p =>
    refine running_keeps hs h ?_
    split <;> first | exact h | exact subscribe_ring (htaken p)
  | journalStatus p =>
    refine running_keeps hs h ?_
    split <;> first | exact h | exact journalStatus_ring (htaken p)
  | _ =>
    exact h.of_same (commandsKeepFrame _ s t hs .journal
      (by simp [footprint, answered, stateChange, laneEnding, laneReturn, creation]))

/-! ## Every step -/

/-- A law of the escort list that every command keeps, every step keeps. -/
theorem step_keepsEscort (hs : step s = .next t) : KeepsEscort s t :=
  ⟨fun h => step_keeps (P := EscortLaw) (fun _ h => h) (fun _ _ h => h) (fun _ _ _ h hc => (exec_keepsEscort hc).1 h) h hs,
    fun h => step_keeps (P := EscortNamesLaw) (fun _ h => h) (fun _ _ h => h)
      (fun _ _ _ h hc => (exec_keepsEscort hc).2 h) h hs⟩

/-- Settles O9: a tick leaves the lists. -/
theorem stepKeepsListBounds : Obligations.StepKeepsListBounds := fun _ _ hs =>
  ⟨(step_keepsEscort hs).1, (step_keepsEscort hs).2,
    fun h => step_keeps (fun _ h => h) (fun _ _ h => h) (fun _ _ _ => exec_calls) h hs,
    fun h => step_keeps (fun _ h => h) (fun _ _ h => h) (fun _ _ _ => exec_ring) h hs⟩

end Sys2Proof.Machine
end

section
/-!
PROOFS. The ALERT lines (R178), and the Foyer Bus: its laws (R184, R190), the marks, the bytes, the replies and the stalls
(R183 to R190).
-/
namespace Sys2Proof.Machine

variable {s t u : State} {p : Port} {x : Txn} {bs : List Byte} {y : Byte}

/-! ## The ALERT lines -/

theorem AlertLaw.of_notices (h : AlertLaw s) (k : t.notices = s.notices) : AlertLaw t := by
  rw [AlertLaw, k]
  exact h

/-- A notice unit that ends an event has worked out its line (R178). -/
theorem NoticeUnit.settle_alert (u : NoticeUnit) :
    u.settle.alert = alertLine u.settle.set u.settle.masked u.settle.master := rfl

theorem onNotices_alerts {f : NoticeUnit → NoticeUnit} (h : AlertLaw s)
    (hf : ∀ v, (f v).alert = alertLine (f v).set (f v).masked (f v).master) : AlertLaw (onNotices p f s) := by
  intro q
  change ((s.notices.set p (f (s.notices.get p))).get q).alert = _
  by_cases hq : q = p
  · subst hq
    simp [hf]
  · simp [PerPort.get_set_ne _ _ hq, h q]

theorem enterReset_alerts : AlertLaw (enterReset s) := by
  intro p
  have hp : (enterReset s).notices.get p = NoticeUnit.warm (s.notices.get p) := PerPort.get_map ..
  rw [hp]
  rfl

theorem leaveReset_notices {straps : BitVec 5} : (leaveReset straps s).notices = s.notices := by
  have h (q : Port) : (Block.notices q).same s (leaveReset straps s) := by
    rw [leaveReset, compareInput_keeps (by simp), resumeSafety_keeps (by simp), readStraps_keeps (by simp)]
    rfl
  have hs := h .security
  have hr := h .reception
  have hd := h .dispatch
  simp only [Block.same, PerPort.get] at hs hr hd
  cases ht : (leaveReset straps s).notices
  cases hk : s.notices
  simp_all

/-- Every command keeps the ALERT lines as R178 says: those that touch a notice unit work its line out, the others leave
the notice units. -/
theorem exec_alerts {c : Instr} (h : AlertLaw s) (hs : exec c s = .next t) : AlertLaw t := by
  have hkept (hc : ∀ q, Block.notices q ∉ footprint c) : AlertLaw t := fun q => by
    have hq : t.notices.get q = s.notices.get q := commandsKeepFrame c s t hs (.notices q) (hc q)
    rw [hq]
    exact h q
  cases c with
  | powerOn straps high =>
    intro q
    have hq : t.notices.get q = State.reset.notices.get q := powerOn_same hs (b := .notices q) (by simp)
    rw [hq]
    exact reset_alerts q
  | warmReset => injection hs with hs; exact hs ▸ enterReset_alerts
  | leaveWarmReset straps =>
    injection hs with hs
    subst hs
    split
    · exact h.of_notices leaveReset_notices
    · exact h
  | bankReset p straps =>
    refine running_keeps hs h ?_
    split
    · exact enterReset_alerts.of_notices leaveReset_notices
    · exact h
  | readNotices p =>
    refine running_keeps hs h ?_
    split
    · exact onNotices_alerts (s := answer p .ok _ (takeRequest p s)) h fun _ => rfl
    · exact h
  | setNoticeMask p =>
    refine running_keeps hs h ?_
    split
    · unfold takenByBlock setNoticeMask
      split
      · exact h
      · exact onNotices_alerts (s := takeRequest p s) (f := fun v => v.mask _ _) h fun _ => rfl
    · exact h
  | noticeLevelReport p n | latchedNoticeSet p n =>
    refine running_keeps hs h ?_
    split
    · exact onNotices_alerts (s := s.onMail _) h fun _ => rfl
    · exact h
  | _ => exact hkept (by simp [footprint, answered, stateChange, laneEnding, laneReturn, creation, everyPort])

/-! ## The port base and the stall exponent -/

/-- The port base and the stall exponent: what of the bus unit no transaction changes (R184, R190). -/
def busSetting (s : State) : Nat × Nat := (s.bus.base, s.bus.stallK)

theorem BusLaw.of_setting (h : BusLaw s) (k : busSetting t = busSetting s) : BusLaw t := by
  simp only [busSetting, Prod.mk.injEq] at k
  rw [BusLaw, k.1, k.2]
  exact h

theorem busSetting_of_same (h : Block.bus.same s t) : busSetting t = busSetting s := by
  have k : t.bus = s.bus := h
  rw [busSetting, k]
  rfl

@[simp] theorem busy_setting : busSetting (busy x s) = busSetting s := rfl
@[simp] theorem acked_setting {a : Ack} : busSetting (acked a s) = busSetting s := rfl
@[simp] theorem onPort_setting {f : PortUnit → PortUnit} : busSetting (s.onPort p f) = busSetting s := rfl

@[simp] theorem takeStart_setting : busSetting (takeStart s) = busSetting s := by
  unfold takeStart
  split <;> rfl

@[simp] theorem endTxn_setting : busSetting (endTxn x s) = busSetting s := busSetting_of_same (by simp)

@[simp] theorem stopTxn_setting : busSetting (stopTxn x s) = busSetting s :=
  (rfl : busSetting (stopTxn x s) = busSetting (endTxn x s)).trans endTxn_setting

@[simp] theorem addressed_setting : busSetting (addressed y x s) = busSetting s := by
  unfold addressed addressWrite addressRead
  (repeat' split) <;> simp

@[simp] theorem dataByte_setting : busSetting (dataByte y x s) = busSetting s := by
  unfold dataByte
  (repeat' split) <;> simp

@[simp] theorem emptySlot_setting : busSetting (emptySlot p s) = busSetting s := busSetting_of_same (by simp)

@[simp] theorem sendByte_setting {z : ReadSource} {n : Nat} : busSetting (sendByte p z n x s) = busSetting s := by
  unfold sendByte fullyRead
  dsimp only
  split
  · simp only [busy_setting, onPort_setting, emptySlot_setting]
    rfl
  · rfl

@[simp] theorem releaseHold_setting {z : ReadSource} : busSetting (releaseHold p z s) = busSetting s := by
  unfold releaseHold
  (repeat' split) <;> simp

@[simp] theorem abandon_setting : busSetting (abandon x s) = busSetting s := by
  unfold abandon
  (repeat' split) <;> rfl

theorem portBase_bounds (straps : BitVec 5) : 2 ≤ portBase straps ∧ portBase straps ≤ 29 := by
  unfold portBase
  (repeat' split) <;> omega

/-- Where the straps have been read, the port base is theirs (R184). -/
theorem leaveReset_setting {straps : BitVec 5} : busSetting (leaveReset straps s) = (portBase straps, s.bus.stallK) := by
  have h : Block.bus.same (readStraps straps
      { s with resetHeld := false, lines := s.lines.map (fun u => { u with nextCycle := s.time }) })
      (leaveReset straps s) := by
    rw [leaveReset, compareInput_keeps (by decide), resumeSafety_keeps (by simp)]
    exact Block.same_refl _ _
  exact busSetting_of_same h

theorem leaveReset_busLaw {straps : BitVec 5} (h : BusLaw s) : BusLaw (leaveReset straps s) := by
  have hset := leaveReset_setting (s := s) (straps := straps)
  simp only [busSetting, Prod.mk.injEq] at hset
  rw [BusLaw, hset.1, hset.2]
  exact ⟨(portBase_bounds straps).1, (portBase_bounds straps).2, h.2.2.1, h.2.2.2⟩

/-- An event whose effect leaves the port base and the stall exponent keeps their law, taken or not. -/
theorem BusLaw.of_running (h : BusLaw s) (hu : busSetting u = busSetting s) (hs : running s u = .next t) : BusLaw t :=
  running_keeps hs h (h.of_setting hu)

/-- Every command keeps the port base and the stall exponent within their bounds: the resets read the straps, SET_BUS
tests its value, the bus's events leave both, and the other commands leave the bus unit. -/
theorem exec_busLaw {c : Instr} (h : BusLaw s) (hs : exec c s = .next t) : BusLaw t := by
  cases c with
  | powerOn straps high =>
    injection hs with hs
    subst hs
    exact ⟨(portBase_bounds straps).1, (portBase_bounds straps).2, (by decide : 3 ≤ 5), (by decide : 5 ≤ 7)⟩
  | warmReset => injection hs with hs; exact hs ▸ h
  | leaveWarmReset straps =>
    injection hs with hs
    subst hs
    split
    · exact leaveReset_busLaw h
    · exact h
  | bankReset p straps =>
    refine running_keeps hs h ?_
    split
    · exact leaveReset_busLaw (s := enterReset s) h
    · exact h
  | setBus p =>
    refine running_keeps hs h ?_
    unfold takenByBlock
    (repeat' split) <;> try exact h
    rename_i hk
    exact ⟨h.1, h.2.1, hk.1, hk.2⟩
  | startMark | repeatedStart | stopMark | addressByte y | requestDataByte y | stallLimitExpiry =>
    refine h.of_running ?_ hs
    (repeat' split) <;> first | rfl | simp
  | replyByteSent ack | holdLimitExpiry =>
    refine h.of_running ?_ hs
    (repeat' split) <;> first | rfl | simp
  | replyToSlot p =>
    refine h.of_running ?_ hs
    split
    · rw [releaseHold_setting]
      rfl
    · rfl
  | _ =>
    refine h.of_setting (busSetting_of_same (commandsKeepFrame _ s t hs .bus ?_))
    simp [footprint, answered, stateChange, laneEnding, laneReturn, creation]

/-- Settles O11: a tick leaves the notice units and the bus unit. -/
theorem stepKeepsPinsAndBus : Obligations.StepKeepsPinsAndBus := fun _ _ hs =>
  ⟨fun h => step_keeps (fun _ h => h) (fun _ _ h => h) (fun _ _ _ => exec_alerts) h hs,
    fun h => step_keeps (fun _ h => h) (fun _ _ h => h) (fun _ _ _ => exec_busLaw) h hs⟩

end Sys2Proof.Machine
end

section
/-!
PROOFS. The Foyer Bus: the marks (R183), the address byte (R184, R185), the bytes of a transaction (R185, R186, R188), the
replies, the holds and the stalls (R187, R189, R190).
-/
namespace Sys2Proof.Machine

variable {s t u : State} {p q : Port} {x : Txn} {bs : List Byte} {y : Byte}

/-! ## What the bus's operations do to the port units and the bus unit -/

theorem resetWaits_eq_false : resetWaits s = false ↔ ∀ p, s.request p ≠ some .bankReset := by
  simp only [resetWaits, List.any_eq_false, beq_iff_eq]
  exact ⟨fun h p => h p (mem_portAll p), fun h p _ => h p⟩

@[simp] theorem busy_bus : (busy x s).bus = { s.bus with seen := .busy x, lastEdge := s.time } := rfl
@[simp] theorem busy_ports : (busy x s).ports = s.ports := rfl
@[simp] theorem busy_port : (busy x s).port p = s.port p := rfl
@[simp] theorem acked_bus {a : Ack} : (acked a s).bus = { s.bus with lastAck := some a } := rfl
@[simp] theorem acked_ports {a : Ack} : (acked a s).ports = s.ports := rfl
@[simp] theorem acked_port {a : Ack} : (acked a s).port p = s.port p := rfl
@[simp] theorem stopTxn_seen : (stopTxn x s).bus.seen = .idle := rfl
@[simp] theorem stopTxn_port : (stopTxn x s).port p = (endTxn x s).port p := rfl

@[simp] theorem fillSlot_port : (fillSlot p bs s).port p = { s.port p with state := .replyReady, slot := some bs } := by
  simp [fillSlot, reportLevel]

@[simp] theorem emptySlot_port : (emptySlot p s).port p = { s.port p with slot := none } := by
  unfold emptySlot
  dsimp only
  split <;> simp [reportLevel]

@[simp] theorem emptySlot_bus : (emptySlot p s).bus = s.bus := (emptySlot_keeps (b := .bus) (by simp)).mpr rfl
@[simp] theorem emptySlot_time : (emptySlot p s).time = s.time := (emptySlot_keeps (b := .time) (by simp)).mpr rfl

/-- A request that passes its checks is handed on, and the slot is empty (R186, R187). -/
theorem requestTaken_handedOn {r : Request}
    (h : judgeRequest p (s.port p).overlong (s.port p).buffer = .handedOn r) :
    (requestTaken p s).port p
      = { s.port p with state := .inProgress, buffer := [], overlong := false, slot := none, handed := some r } := by
  simp [requestTaken, h]

/-- A request that fails a check leaves its refusal in the slot, in the event that takes it (R187, log entry 48). -/
theorem requestTaken_refused {st : Status} (h : judgeRequest p (s.port p).overlong (s.port p).buffer = .refused st) :
    (requestTaken p s).port p
      = { s.port p with state := .replyReady, buffer := [], overlong := false, slot := some (replyBytes st []) } := by
  simp [requestTaken, h]

theorem endTxn_write_empty (hx : x.phase = .write p) (h : (s.port p).buffer = []) :
    endTxn x s = s.onPort p PortUnit.goBack := by
  simp [endTxn, hx, h]

theorem endTxn_write (hx : x.phase = .write p) (h : (s.port p).buffer ≠ []) : endTxn x s = requestTaken p s := by
  simp [endTxn, hx, h]

/-! ## The marks -/

theorem exec_startMark (h : s.resetHeld = false) : exec .startMark s = .next (takeStart s) :=
  running_of_not_resetHeld h _

theorem exec_stopMark_busy (h : s.resetHeld = false) (hb : s.bus.seen = .busy x) :
    exec .stopMark s = .next (stopTxn x s) := by
  refine (running_of_not_resetHeld h _).trans ?_
  simp only [hb]

theorem exec_stopMark_not_busy (h : s.resetHeld = false) (hb : ∀ x, s.bus.seen ≠ .busy x) :
    exec .stopMark s = .next { s with bus := { s.bus with seen := .idle } } := by
  refine (running_of_not_resetHeld h _).trans ?_
  split
  · rename_i hx; exact absurd hx (hb _)
  · rfl

theorem exec_repeatedStart_busy (h : s.resetHeld = false) (hb : s.bus.seen = .busy x) :
    exec .repeatedStart s = .next (takeStart (stopTxn x s)) := by
  refine (running_of_not_resetHeld h _).trans ?_
  simp only [hb]

theorem exec_repeatedStart_not_busy (h : s.resetHeld = false) (hb : ∀ x, s.bus.seen ≠ .busy x) :
    exec .repeatedStart s = .next s := by
  refine (running_of_not_resetHeld h _).trans ?_
  split
  · rename_i hx; exact absurd hx (hb _)
  · rfl

theorem stopTxn_resetHeld : (stopTxn x s).resetHeld = s.resetHeld :=
  (stopTxn_keeps (b := .resetHeld) (by simp)).mpr rfl

/-- A start mark in IDLE begins a transaction unless a BANK_RESET stands handed on (R183, R191). -/
theorem takeStart_of_idle (hb : s.bus.seen = .idle) (h : ∀ p, s.request p ≠ some .bankReset) :
    takeStart s = beginTxn s := if_pos ⟨hb, resetWaits_eq_false.mpr h⟩

theorem takeStart_of_resetWaits (h : s.request p = some .bankReset) : takeStart s = s :=
  if_neg fun hk => resetWaits_eq_false.mp hk.2 p h

theorem takeStart_of_not_idle (hb : s.bus.seen ≠ .idle) : takeStart s = s := if_neg fun hk => hb hk.1

/-- A transaction in which nothing was written ends without an effect at the ports (R183). -/
theorem stopTxn_unwritten (hx : x.phase = .address ∨ x.phase = .aside ∨ (∃ p src n, x.phase = .read p src n)
    ∨ (∃ p n, x.phase = .held p n)) : stopTxn x s = { s with bus := { s.bus with seen := .idle } } := by
  have hend : endTxn x s = s := by
    unfold endTxn
    rcases hx with hx | hx | ⟨p, src, n, hx⟩ | ⟨p, n, hx⟩ <;> rw [hx]
  rw [stopTxn, hend]
  rfl

theorem endBroadcast_beacons (bs : List Byte) (tooLong : Bool) (s : State) : (endBroadcast bs tooLong s).mail.beacons
    = s.mail.beacons ++ (match tooLong, parseBeacon bs with | false, some v => [v] | _, _ => []) := by
  cases tooLong <;> cases hbeacon : parseBeacon bs <;> simp [endBroadcast, hbeacon]

theorem stopTxn_broadcast {tooLong : Bool} (hx : x.phase = .broadcast bs tooLong) :
    (stopTxn x s).mail = (endBroadcast bs tooLong s).mail := by
  simp only [stopTxn, endTxn, hx, onBus_fields]

/-- Settles O17: each mark by the state of the bus, and the end of a transaction by its phase. -/
theorem busMarks : Obligations.BusMarks := by
  intro s h
  refine ⟨fun hb hp => ?_, fun p hp => ?_, fun hb => ?_, fun hb => ⟨exec_stopMark_not_busy h hb,
    exec_repeatedStart_not_busy h hb⟩, fun x hb => ⟨?_, fun hx => ?_, fun bytes tooLong hx => ?_, fun p hx => ⟨fun he => ?_,
    fun hne => ⟨fun r hr => ?_, fun st hst => ?_⟩⟩⟩⟩
  · rw [exec_startMark h, takeStart_of_idle hb hp]
    rfl
  · rw [exec_startMark h, takeStart_of_resetWaits hp]
  · rw [exec_startMark h, takeStart_of_not_idle hb]
  · exact ⟨_, _, exec_stopMark_busy h hb, exec_startMark (stopTxn_resetHeld.trans h), exec_repeatedStart_busy h hb⟩
  · rw [exec_stopMark_busy h hb, stopTxn_unwritten hx]
  · exact ⟨_, exec_stopMark_busy h hb, rfl, by rw [stopTxn_broadcast hx]; exact endBroadcast_beacons ..⟩
  · refine ⟨_, exec_stopMark_busy h hb, rfl, ?_⟩
    rw [stopTxn_port, endTxn_write_empty hx he, State.port_onPort_self]
    rfl
  · refine ⟨_, exec_stopMark_busy h hb, rfl, ?_⟩
    rw [State.request, stopTxn_port, endTxn_write hx hne, requestTaken_handedOn hr]
    exact ⟨rfl, rfl, rfl, rfl⟩
  · refine ⟨_, exec_stopMark_busy h hb, rfl, ?_⟩
    rw [stopTxn_port, endTxn_write hx hne, requestTaken_refused hst]
    exact ⟨rfl, rfl, rfl⟩

/-! ## The address byte -/

theorem exec_addressByte (h : s.resetHeld = false) (hb : s.bus.seen = .busy x) (hx : x.phase = .address) :
    exec (.addressByte y) s = .next (addressed y x s) := by
  refine (running_of_not_resetHeld h _).trans ?_
  simp only [hb, hx, if_true]

/-- Under the bus's law the address of a port is its base address and its role number (R184). -/
theorem portAt_eq_some {base n : Nat} : portAt base n = some p ↔ n = 4 * base + p.num := by
  unfold portAt
  cases p <;> simp only [Port.num] <;> (repeat' split) <;> simp <;> omega

theorem portAt_eq_none {base n : Nat} : portAt base n = none ↔ ∀ p : Port, n ≠ 4 * base + p.num := by
  simp only [ne_eq, ← portAt_eq_some, Option.eq_none_iff_forall_not_mem, Option.mem_def]

theorem addressWrite_taken (hp : (s.port p).state = .idle ∨ (s.port p).state = .replyReady) :
    addressWrite p x s = acked .acknowledged (busy { x with phase := .write p, addressed := some p }
      (s.onPort p (fun u =>
        { u with state := .receiving, fromReady := u.state == .replyReady, buffer := [], overlong := false }))) := by
  unfold addressWrite
  rcases hp with hp | hp <;> rw [hp]

theorem addressWrite_refused (hp : (s.port p).state = .receiving ∨ (s.port p).state = .inProgress) :
    addressWrite p x s = acked .refused (busy { x with phase := .aside, addressed := some p } s) := by
  unfold addressWrite
  rcases hp with hp | hp <;> rw [hp]

/-- Settles O18: the address names a port, or is the broadcast address, which the base's bound makes no port's, or is
another's. -/
theorem addressBytes : Obligations.AddressBytes := by
  intro y s x h hlaw hb hx
  have hexec : exec (.addressByte y) s = .next (addressed y x s) := exec_addressByte h hb hx
  refine ⟨fun p hp => ⟨fun hw => ⟨fun hst => ?_, fun hst => ?_⟩, fun hr => ?_⟩, fun hzero => ?_, fun hne hother => ?_⟩
  · have haddr : addressed y x s = addressWrite p x s := by simp only [addressed, portAt_eq_some.mpr hp, hw]
    refine ⟨_, hexec, ?_⟩
    rw [haddr, addressWrite_taken hst]
    exact ⟨rfl, rfl, by simp⟩
  · have haddr : addressed y x s = addressWrite p x s := by simp only [addressed, portAt_eq_some.mpr hp, hw]
    refine ⟨_, hexec, ?_⟩
    rw [haddr, addressWrite_refused hst]
    exact ⟨rfl, rfl, rfl⟩
  · have haddr : addressed y x s = addressRead p x s := by simp only [addressed, portAt_eq_some.mpr hp, hr]
    refine ⟨_, hexec, ?_⟩
    rw [haddr]
    refine ⟨rfl, rfl, ?_⟩
    simp only [addressRead, acked_bus, busy_bus, readPhase]
    cases (s.port p).state <;> rfl
  · have hnone : portAt s.bus.base (y.toNat / 2) = none := portAt_eq_none.mpr fun p hp => by
      have := hlaw.1
      omega
    have haddr : addressed y x s = if y.getLsbD 0 then acked .refused (busy { x with phase := .aside } s)
        else acked .acknowledged (busy { x with phase := .broadcast [] false } s) := by
      simp only [addressed]
      rw [hnone]
      exact if_pos hzero
    refine ⟨_, hexec, ?_⟩
    rw [haddr]
    split
    · exact ⟨rfl, rfl, rfl⟩
    · exact ⟨rfl, rfl, rfl⟩
  · refine ⟨_, hexec, ?_⟩
    simp [addressed, portAt_eq_none.mpr hother, hne]

/-! ## The bytes of a transaction -/

theorem exec_requestDataByte (h : s.resetHeld = false) (hb : s.bus.seen = .busy x) :
    exec (.requestDataByte y) s = .next (dataByte y x s) := by
  refine (running_of_not_resetHeld h _).trans ?_
  simp only [hb]

theorem exec_replyByteSent {ack : Bool} {src : ReadSource} {n : Nat} (h : s.resetHeld = false) (hb : s.bus.seen = .busy x)
    (hx : x.phase = .read p src n) : exec (.replyByteSent ack) s = .next (sendByte p src n x s) := by
  refine (running_of_not_resetHeld h _).trans ?_
  simp only [hb, hx]

/-- The last byte of a slot's reply: the reply is fully read (R188). -/
theorem sendByte_last {n : Nat} (hslot : (s.port p).slot = some bs) (hn : n + 1 = bs.length) :
    sendByte p .slot n x s
      = fullyRead p x (onBus (fun b => { b with lastByte := some (bs.getD n 0xFF) }) s) := by
  simp [sendByte, readBytes, hslot, hn]

/-- A slot that held a reply is reported clear (R176). -/
theorem emptySlot_full (hslot : (s.port p).slot = some bs) :
    emptySlot p s = reportLevel p .replyReady false (s.onPort p (fun u => { u with slot := none })) := by
  simp [emptySlot, hslot]

theorem fullyRead_notices (hslot : (s.port p).slot = some bs) :
    (fullyRead p x s).mail.notices = s.mail.notices ++ [.level p .replyReady false] := by
  rw [fullyRead, emptySlot_full hslot]
  rfl

/-- Settles O19: the bytes written by the phase and the fortieth byte, those read by their source and the last byte. -/
theorem transactionBytes : Obligations.TransactionBytes := by
  refine ⟨fun y s x h hb => ⟨fun p hx => ⟨_, exec_requestDataByte h hb, ?_⟩,
    fun bytes tooLong hx => ⟨_, exec_requestDataByte h hb, ?_⟩, fun hx => ⟨_, exec_requestDataByte h hb, ?_⟩⟩,
    fun ack s x p src n h hb hx => ⟨fun bytes hsrc hslot hn => ?_, fun bytes hsrc hslot hn => ?_, fun bytes hsrc => ?_⟩⟩
  · by_cases hfull : (s.port p).buffer.length < 40
    · simp [dataByte, hx, Config.requestBytes, hfull]
    · simp [dataByte, hx, Config.requestBytes, hfull]
  · by_cases hfull : bytes.length < 40
    · simp [dataByte, hx, Config.requestBytes, hfull]
    · simp [dataByte, hx, Config.requestBytes, hfull]
  · simp [dataByte, hx]
  · rw [exec_replyByteSent h hb hx]
    have hlast : n + 1 ≠ bytes.length := by omega
    simp [sendByte, readBytes, hsrc, hslot, hlast]
    rfl
  · refine ⟨_, exec_replyByteSent h hb hx, ?_⟩
    rw [hsrc, sendByte_last hslot hn]
    refine ⟨?_, ?_, ?_, ?_⟩
    · simp [fullyRead]
    · simp [fullyRead]
    · simp [fullyRead]
    · exact fullyRead_notices (s := onBus _ s) hslot
  · rw [exec_replyByteSent h hb hx]
    simp [sendByte, readBytes, hsrc]
    rfl

/-! ## Replies, holds and stalls -/

theorem exec_replyToSlot (h : s.resetHeld = false) (hm : s.mail.replies.get p = some bs) :
    exec (.replyToSlot p) s = .next (releaseHold p .slot
      (fillSlot p bs (s.onMail (fun m => { m with replies := m.replies.set p none })))) := by
  refine (running_of_not_resetHeld h _).trans ?_
  simp only [hm]

/-- A hold ended leaves all but the bus unit. -/
theorem releaseHold_same {b : Block} {src : ReadSource} (hb : b ≠ .bus) : b.same s (releaseHold p src s) := by
  simp [hb]

/-- A read held for the port goes on (R189). -/
theorem releaseHold_held {src : ReadSource} {since : Nat} (hb : s.bus.seen = .busy x) (hx : x.phase = .held p since) :
    releaseHold p src s = busy { x with phase := .read p src 0 } s := by
  simp [releaseHold, hb, hx]

theorem releaseHold_not_held {src : ReadSource} (h : ∀ x since, s.bus.seen = .busy x → x.phase ≠ .held p since) :
    releaseHold p src s = s := by
  unfold releaseHold
  split
  · rename_i x hb
    split
    · rename_i q since hx
      exact if_neg fun hq : q = p => h x since hb (hq ▸ hx)
    · rfl
  · rfl

theorem exec_holdLimitExpiry {since : Nat} (h : s.resetHeld = false) (hb : s.bus.seen = .busy x)
    (hx : x.phase = .held p since) : exec .holdLimitExpiry s = .next
      (if since + 25 ≤ s.time then releaseHold p (.fixed (replyBytes .notReady [])) s else s) := by
  refine (running_of_not_resetHeld h _).trans ?_
  simp only [hb, hx]
  rfl

theorem exec_stallLimitExpiry (h : s.resetHeld = false) (hb : s.bus.seen = .busy x) :
    exec .stallLimitExpiry s = .next (if !x.phase.held? && stalled s x then abandon x s else s) := by
  refine (running_of_not_resetHeld h _).trans ?_
  simp only [hb]

theorem held?_eq_false : x.phase.held? = false ↔ ∀ p since, x.phase ≠ .held p since := by
  cases x.phase <;> simp [TxnPhase.held?]

/-- The bus has stalled: the last edge and those inside a byte are longer ago than the limit (R190). -/
theorem stalled_iff : stalled s x = true ↔ s.bus.lastEdge + x.limit < s.time
    ∧ ∀ edge ∈ s.pins.edges, edge ≤ s.time → edge + x.limit < s.time := by
  simp [stalled, withinLimit]

theorem abandon_notices : (abandon x s).mail.notices
    = s.mail.notices ++ (match x.addressed with | some p => [.latched p .stall] | none => []) := by
  cases hx : x.phase <;> cases hp : x.addressed <;> simp [abandon, notify, hx, hp]

theorem abandon_write (hx : x.phase = .write p) : (abandon x s).port p = (s.port p).goBack := by
  unfold abandon
  rw [hx]
  cases x.addressed <;> simp [notify]

theorem exec_setBus {k : Byte} (h : Asked p (.setBus k) s) : exec (.setBus p) s = .next
    (if 3 ≤ k.toNat ∧ k.toNat ≤ 7 then answer p .ok [] { taken p s with bus := { s.bus with stallK := k.toNat } }
     else answer p .badField [] (taken p s)) := by
  refine (running_of_not_resetHeld h.1 _).trans ?_
  simp only [h.2, takenByBlock]
  rfl

/-- Settles O20: a reply taken to its slot, with the read held for it or not; a hold by its limit; a stall by the edges;
SET_BUS by its value. -/
theorem repliesHoldsAndStalls : Obligations.RepliesHoldsAndStalls := by
  intro s h
  refine ⟨fun p bytes hm => ⟨_, exec_replyToSlot h hm, ?_⟩, fun x p since hb hx => ⟨fun hdue => ?_, fun hearly => ?_, ?_⟩,
    fun x hb hx => ⟨fun hedge => ?_, fun hlast hedges => ⟨_, exec_stallLimitExpiry h hb, ?_⟩⟩, fun p k => exec_setBus⟩
  · let u := fillSlot p bytes (s.onMail (fun m => { m with replies := m.replies.set p none }))
    have hport : (releaseHold p .slot u).port p = u.port p := releaseHold_same (b := .port p) (by simp)
    have hreply : (releaseHold p .slot u).mail.replies.get p = u.mail.replies.get p :=
      releaseHold_same (b := .replies p) (by simp)
    have hnotices : (releaseHold p .slot u).mail.notices = u.mail.notices := releaseHold_same (b := .noticeMail) (by simp)
    have hu : u.port p = { s.port p with state := .replyReady, slot := some bytes } := fillSlot_port
    refine ⟨by rw [hport, hu], by rw [hport, hu], by rw [hreply]; exact PerPort.get_set_self .., by rw [hnotices]; rfl,
      fun x since hb hx => ?_, fun hnone => ?_⟩
    · rw [releaseHold_held (s := u) hb hx]
      rfl
    · rw [releaseHold_not_held (s := u) fun x since hb => hnone x since hb]
      rfl
  · rw [exec_holdLimitExpiry h hb hx, if_pos hdue, releaseHold_held hb hx]
    rfl
  · rw [exec_holdLimitExpiry h hb hx, if_neg (by omega)]
  · rw [exec_stallLimitExpiry h hb, hx]
    rfl
  · have hno : stalled s x = false := by
      rw [Bool.eq_false_iff, ne_eq, stalled_iff]
      rintro ⟨hlast, hedges⟩
      rcases hedge with hedge | ⟨edge, hmem, hle, hnear⟩
      · omega
      · have := hedges edge hmem hle
        omega
    rw [exec_stallLimitExpiry h hb, hno, Bool.and_false]
    rfl
  · rw [held?_eq_false.mpr hx, stalled_iff.mpr ⟨hlast, hedges⟩]
    exact ⟨rfl, abandon_notices, fun p hp => abandon_write hp⟩

end Sys2Proof.Machine
end

section
/-!
PROOFS. Power-on, the warm reset and the leaving of it, and the egress transitions that the leaving may meet (R125 to R138).
-/
namespace Sys2Proof.Machine

variable {s t u : State} {straps : BitVec 5}

/-! ## The input's comparison -/

theorem compareInput_safety : (compareInput s).safety = { s.safety with debounceDue :=
    if s.pins.egressReq = s.safety.called then none
    else if s.safety.debounceDue.isSome then s.safety.debounceDue else some (s.time + 50) } := rfl

theorem compareInput_same {b : Block} (hb : b ≠ .safety) : b.same s (compareInput s) := by simp [hb]

/-! ## Power-on -/

theorem exec_powerOn_eq {high : Bool} : exec (.powerOn straps high) s = .next { State.reset with
    pending := s.pending, pins := { s.pins with straps := straps, egressReq := high }
    bus := { BusUnit.reset with
      base := if straps.toNat < 2 then 2 else if straps.toNat > 29 then 29 else straps.toNat }
    safety := { SafetyUnit.reset with debounceDue := if high then some 50 else none } } := by
  cases high <;> rfl

theorem LineUnit.reset_slot (x : Slot) : LineUnit.reset.slot x = .reset := by cases x <;> rfl

theorem LaneUnit.reset_display (rd : Reader) : LaneUnit.reset.display rd = .reset := by cases rd <;> rfl

theorem LaneSettings.reset_allows : (∀ q, hasLeaf LaneSettings.reset.allowedLeaf q = true)
    ∧ ∀ m, hasMedium LaneSettings.reset.allowedMedia m = true :=
  ⟨fun q => by cases q <;> decide, fun m => by cases m <;> decide⟩

theorem NoticeUnit.reset_bits (n : Notice) : NoticeUnit.reset.set.getLsbD n.num = false
    ∧ NoticeUnit.reset.masked.getLsbD n.num = true := by
  cases n <;> decide

/-- Settles O14: the state after power-on is written out, and its lanes, lines, ports and notice units all stand at one
reset value. -/
theorem powerOnUnits : Obligations.PowerOnUnits := by
  intro straps high s
  refine ⟨_, exec_powerOn_eq, rfl, ?_⟩
  generalize ht : ({ State.reset with
    pending := s.pending, pins := { s.pins with straps := straps, egressReq := high }
    bus := { BusUnit.reset with
      base := if straps.toNat < 2 then 2 else if straps.toNat > 29 then 29 else straps.toNat }
    safety := { SafetyUnit.reset with debounceDue := if high then some 50 else none } } : State) = t
  have hlane (l : Lane) : t.lane l = .reset := by subst ht; exact PerLane.get_fill ..
  have hline (l : Lane) : t.line l = .reset := by subst ht; exact PerLane.get_fill ..
  have hport (p : Port) : t.port p = .reset := by subst ht; exact PerPort.get_fill ..
  have hnotices (p : Port) : t.notices.get p = .reset := by subst ht; exact PerPort.get_fill ..
  have hheld (l : Lane) : heldPlaces t l = 0 := by
    rw [heldPlaces, hlane]
    subst ht
    rfl
  have hslot (l : Lane) (x : Slot) : (t.line l).slot x = .reset := by rw [hline]; exact LineUnit.reset_slot x
  refine ⟨?_, ?_, ?_, fun l => ?_, fun l => ?_, ?_⟩
  · subst ht; rfl
  · subst ht; rfl
  · subst ht; rfl
  · rw [hlane]
    exact ⟨rfl, rfl, rfl, rfl, rfl, rfl, LaneSettings.reset_allows.1, LaneSettings.reset_allows.2⟩
  · rw [hheld, hlane]
    exact ⟨rfl, rfl, rfl, rfl, rfl, rfl, fun rd => by rw [LaneUnit.reset_display]; exact ⟨rfl, rfl⟩, rfl, rfl, rfl, rfl⟩
  · refine ⟨?_, ?_, ?_, ?_, ?_, ?_, ?_, ?_, ?_, ?_, ?_, ?_, ?_, ?_, fun l x => ?_, fun l => ?_, ?_, ?_, ?_, ?_, ?_,
      fun p => ?_, ?_, ?_, ?_, fun p n => ?_, ?_, ?_, fun p => ?_⟩
    case refine_15 =>
      rw [hslot l x]
      exact ⟨rfl, rfl, rfl, rfl, rfl, rfl, rfl, rfl, rfl⟩
    case refine_16 =>
      rw [hline l]
      exact ⟨rfl, rfl, rfl, Nat.zero_le _⟩
    case refine_22 =>
      subst ht
      exact ⟨rfl, PerPort.get_fill ..⟩
    case refine_26 =>
      rw [hnotices p]
      exact ⟨(NoticeUnit.reset_bits n).1, (NoticeUnit.reset_bits n).2, rfl, rfl⟩
    case refine_29 =>
      rw [hport p]
      exact ⟨rfl, rfl, rfl⟩
    all_goals subst ht; rfl

/-! ## A warm reset -/

theorem enterReset_lane (s : State) (l : Lane) : (enterReset s).lane l
    = LaneUnit.warm (hasLane s.bank.mask l) (enterReset s).occupancy.activeAction (s.lane l) := PerLane.get_tabulate ..

theorem enterReset_line (s : State) (l : Lane) : (enterReset s).line l = LineUnit.warm (hasLane s.bank.mask l) :=
  PerLane.get_tabulate ..

theorem LineUnit.warm_slot (masked : Bool) (x : Slot) :
    (LineUnit.warm masked).slot x = if masked then SlotRec.off else SlotRec.reset := by
  cases x <;> rfl

theorem NoticeUnit.warm_eq (v : NoticeUnit) : v.warm = { v with set := 0, alert := false } := by
  simp [NoticeUnit.warm, NoticeUnit.settle, alertLine]

/-- Settles O15: each block of the reset state, the lanes, lines, ports and notice units one by one. -/
theorem warmResetClears : Obligations.WarmResetClears := by
  intro s
  refine ⟨enterReset s, rfl, rfl, rfl, rfl, rfl, rfl, rfl, rfl, rfl, rfl, rfl, rfl, rfl, rfl, fun l => ?_, fun l x => ?_,
    fun l => ?_, rfl, rfl, rfl, rfl, rfl, rfl, fun p => ?_, fun p => ?_, fun p => ?_, rfl, rfl, rfl, rfl⟩
  · rw [enterReset_lane]
    rfl
  · rw [enterReset_line, LineUnit.warm_slot]
  · rw [enterReset_line]
    exact ⟨rfl, rfl, rfl, rfl⟩
  · exact PerPort.get_fill ..
  · exact (PerPort.get_map ..).trans (NoticeUnit.warm_eq _)
  · exact PerPort.get_fill ..

/-! ## Egress reached, and a restore begun -/

theorem setUncertain_uncertain {c : UncertainCause} : (setUncertain c s).occupancy.uncertain = true := by
  unfold setUncertain
  split
  · assumption
  · rfl

theorem setUncertain_same {c : UncertainCause} {b : Block} (hb : b ∉ [Block.occupancy, .records, .noticeMail]) :
    b.same s (setUncertain c s) := by
  simp at hb
  simp [hb]

theorem becomeEgress_safety : (becomeEgress s).safety = { s.safety with overtake := false, egress := .egress } :=
  setUncertain_same (b := .safety) (by decide)

theorem becomeEgress_uncertain : (becomeEgress s).occupancy.uncertain = true := setUncertain_uncertain

theorem becomeEgress_clears : (becomeEgress s).mail.escortClears = s.mail.escortClears + 1 :=
  setUncertain_same (b := .escortClears) (by decide)

theorem takeWaitingRelease_of_none (h : s.safety.releaseWaiting = false) : takeWaitingRelease s = s := by
  simp [takeWaitingRelease, h]

theorem takeWaitingRelease_of_waiting (h : s.safety.releaseWaiting = true) :
    takeWaitingRelease s = beginRestore (onSafety (fun f => { f with releaseWaiting := false }) s) := by
  simp [takeWaitingRelease, h]

/-- A test for the end of a restore leaves all but the standing of the claim (R134). -/
theorem testRestoreEnd_safety (s : State) : ∃ k, (testRestoreEnd s).safety = { s.safety with claimStands := k } := by
  unfold testRestoreEnd
  split
  · exact ⟨true, rfl⟩
  · exact ⟨s.safety.claimStands, rfl⟩

/-- RESTORING begins, permitted where no request is needed (R131, R132). -/
theorem beginRestore_safety (s : State) : ∃ k, (beginRestore s).safety
    = { s.safety with egress := .restoring, restorePermitted := !s.safety.needsRequest, claimStands := k } := by
  unfold beginRestore
  dsimp only
  split
  · obtain ⟨k, hk⟩ := testRestoreEnd_safety (tellRestore Lane.all (safetyEvent .restoring [yes !s.safety.needsRequest]
      (onSafety (fun f => { f with egress := .restoring, restorePermitted := !s.safety.needsRequest }) s)))
    refine ⟨k, hk.trans ?_⟩
    rw [(tellRestore_keeps (b := .safety) (by simp)).mpr (Block.same_refl _ _)]
    rfl
  · exact ⟨s.safety.claimStands, rfl⟩

/-- A restore that may end claims the amnesty (R134). -/
theorem testRestoreEnd_claims (hegress : s.safety.egress = .restoring) (hpermitted : s.safety.restorePermitted = true)
    (hovertake : s.safety.overtake = false) (hfree : ∀ l, (s.lane l).state ≠ .free) (hdone : s.mail.amnestyDone = 0) :
    (testRestoreEnd s).arbiter.amnesty = true ∧ (testRestoreEnd s).safety.claimStands = true := by
  have hnone : freeLanes s = 0 := by
    simp only [freeLanes, List.length_eq_zero_iff, List.filter_eq_nil_iff]
    exact fun l _ => by simpa using hfree l
  unfold testRestoreEnd
  rw [if_pos ⟨hegress, hpermitted, hovertake, hnone, hdone⟩]
  exact ⟨rfl, rfl⟩

/-! ## Leaving a warm reset -/

/-- The state in which a warm reset is left, before the bank safety unit goes on: the straps are read and the cycles
start. -/
def readied (straps : BitVec 5) (s : State) : State :=
  readStraps straps { s with resetHeld := false, lines := s.lines.map (fun u => { u with nextCycle := s.time }) }

theorem leaveReset_eq : leaveReset straps s = compareInput (resumeSafety (readied straps s)) := rfl

theorem readied_line (l : Lane) : ((readied straps s).line l).nextCycle = s.time := by
  have h : (readied straps s).line l = { s.line l with nextCycle := s.time } := PerLane.get_map ..
  rw [h]

/-- What the leaving of a reset leaves, but for the safety unit's own, is as it was readied. -/
theorem leaveReset_same {b : Block} (hb : b ∉ [Block.safety, .arbiter, .occupancy, .escortClears, .records, .noticeMail]
    ++ everyLane) : b.same (readied straps s) (leaveReset straps s) := by
  have hsafety : b ≠ .safety := by rintro rfl; exact hb (by decide)
  simp only [leaveReset_eq]
  rw [compareInput_keeps (by simp [hsafety]), resumeSafety_keeps hb]
  exact Block.same_refl _ _

theorem leaveReset_resetHeld : (leaveReset straps s).resetHeld = false := leaveReset_same (b := .resetHeld) (by simp)

theorem leaveReset_bus : (leaveReset straps s).bus = { s.bus with base := portBase straps } :=
  leaveReset_same (b := .bus) (by simp)

theorem leaveReset_pins : (leaveReset straps s).pins = { s.pins with straps := straps } :=
  leaveReset_same (b := .pins) (by simp)

theorem exec_leaveWarmReset (h : s.resetHeld = true) : exec (.leaveWarmReset straps) s = .next (leaveReset straps s) :=
  congrArg Host.Outcome.next (if_pos h)

/-- What the comparison finds as a reset is left: the debounce runs where the input differs from the taken level (R138). -/
theorem leaveReset_debounce (hdebounce : s.safety.debounceDue = none)
    (hcalled : (resumeSafety (readied straps s)).safety.called = s.safety.called)
    (hdue : (resumeSafety (readied straps s)).safety.debounceDue = s.safety.debounceDue) :
    (leaveReset straps s).safety.debounceDue
      = if s.pins.egressReq = s.safety.called then none else some (s.time + 50) := by
  have hpins : (resumeSafety (readied straps s)).pins = (readied straps s).pins :=
    (resumeSafety_keeps (b := .pins) (by simp)).mpr rfl
  have htime : (resumeSafety (readied straps s)).time = s.time := (resumeSafety_keeps (b := .time) (by simp)).mpr rfl
  rw [leaveReset_eq, compareInput_safety, hcalled, hdue, hdebounce, hpins, htime]
  rfl

/-- Settles O16: the leaving by what the bank safety unit met; BANK_RESET is the reset and its leaving. -/
theorem warmResetLeft : Obligations.WarmResetLeft := by
  refine ⟨fun straps s => ⟨fun h => ?_, fun h hdebounce => ⟨fun hover hegress => ?_, fun hover hwaiting => ?_,
    fun hover hwaiting => ?_, fun hover hegress => ?_⟩⟩, fun p straps s h => ?_⟩
  · exact congrArg Host.Outcome.next (if_neg (by simp [h]))
  · have hresume : resumeSafety (readied straps s) = readied straps s := by
      have hover' : (readied straps s).safety.overtake = false := hover
      have hegress' : (readied straps s).safety.egress ≠ .restoring := hegress
      simp [resumeSafety, testRestoreEnd, hover', hegress']
    rw [exec_leaveWarmReset h, leaveReset_eq, hresume]
    simp only [compareInput, onSafety, readied, readStraps, onBus, State.after, hdebounce]
    rfl
  · have hresume : resumeSafety (readied straps s) = becomeEgress (readied straps s) := by
      have hover' : (readied straps s).safety.overtake = true := hover
      rw [resumeSafety, if_pos hover', takeWaitingRelease_of_none (by rw [becomeEgress_safety]; exact hwaiting)]
    have hsafety : (leaveReset straps s).safety.overtake = false ∧ (leaveReset straps s).safety.egress = .egress := by
      rw [leaveReset_eq, hresume, compareInput_safety, becomeEgress_safety]
      exact ⟨rfl, rfl⟩
    refine ⟨_, exec_leaveWarmReset h, leaveReset_resetHeld, by rw [leaveReset_pins], by rw [leaveReset_bus],
      fun l => ?_, hsafety.1, hsafety.2, ?_, ?_, leaveReset_debounce hdebounce ?_ ?_⟩
    · have hline : (leaveReset straps s).line l = (becomeEgress (readied straps s)).line l := by
        rw [leaveReset_eq, hresume]
        rfl
      have hkept : (becomeEgress (readied straps s)).line l = (readied straps s).line l :=
        (becomeEgress_keeps (b := .line l) (by simp)).mpr rfl
      rw [hline, hkept, readied_line]
    · rw [leaveReset_eq, hresume]
      exact becomeEgress_uncertain
    · rw [leaveReset_eq, hresume]
      exact becomeEgress_clears
    · rw [hresume, becomeEgress_safety]
      rfl
    · rw [hresume, becomeEgress_safety]
      rfl
  · have hresume : resumeSafety (readied straps s) = beginRestore
        (onSafety (fun f => { f with releaseWaiting := false }) (becomeEgress (readied straps s))) := by
      have hover' : (readied straps s).safety.overtake = true := hover
      rw [resumeSafety, if_pos hover', takeWaitingRelease_of_waiting (by rw [becomeEgress_safety]; exact hwaiting)]
    refine ⟨_, exec_leaveWarmReset h, leaveReset_resetHeld, by rw [leaveReset_bus], ?_⟩
    obtain ⟨k, hk⟩ := beginRestore_safety (onSafety (fun f => { f with releaseWaiting := false })
      (becomeEgress (readied straps s)))
    have hsafety : (onSafety (fun f => { f with releaseWaiting := false }) (becomeEgress (readied straps s))).safety =
      { (becomeEgress (readied straps s)).safety with releaseWaiting := false } := rfl
    rw [leaveReset_eq, hresume, compareInput_safety, hk, hsafety, becomeEgress_safety]
    exact ⟨rfl, rfl, rfl, rfl⟩
  · have hresume : resumeSafety (readied straps s) = testRestoreEnd (readied straps s) := by
      have hover' : (readied straps s).safety.overtake = false := hover
      simp [resumeSafety, hover']
    refine ⟨_, exec_leaveWarmReset h, leaveReset_resetHeld, by rw [leaveReset_bus], ?_,
      fun hpermitted hfree hdone => ?_⟩
    · obtain ⟨k, hk⟩ := testRestoreEnd_safety (readied straps s)
      rw [leaveReset_eq, hresume, compareInput_safety, hk]
      exact hegress
    · rw [leaveReset_eq, hresume]
      exact (testRestoreEnd_claims (s := readied straps s) hegress hpermitted hover hfree hdone).1
  · have hbank : exec (.bankReset p straps) s = .next (leaveReset straps (enterReset s)) := by
      refine (running_of_not_resetHeld h.1 _).trans ?_
      simp only [h.2]
    refine ⟨_, _, rfl, exec_leaveWarmReset rfl, hbank, leaveReset_resetHeld, by rw [leaveReset_bus]; rfl,
      by rw [leaveReset_bus], fun q => ?_⟩
    have hreplies : (leaveReset straps (enterReset s)).mail.replies.get q = (readied straps (enterReset s)).mail.replies.get q :=
      leaveReset_same (b := .replies q) (by simp)
    rw [hreplies]
    exact PerPort.get_fill ..

end Sys2Proof.Machine
end

section
/-!
PROOFS. The lobby clock (R161 to R166): its advance, the requests at it and the beacons it takes.
-/
namespace Sys2Proof.Machine

variable {s : State} {p : Port}

/-! ## The advance -/

theorem exec_clockAdvance_early (h : s.time < s.clock.mark + 1000) : exec .clockAdvance s = .next s := by
  change execClockAdvance s = _
  rw [execClockAdvance, if_neg (by omega)]

theorem exec_clockAdvance_due (h : s.clock.mark + 1000 ≤ s.time) : exec .clockAdvance s
    = .next (if s.resetHeld then onClock ClockUnit.advance s else handAdvance s.clock (onClock ClockUnit.advance s)) := by
  change execClockAdvance s = _
  rw [execClockAdvance, if_pos h]

theorem minuteSweep_start (hwalk : s.table.walk = none) (hwaiting : s.table.waiting = none) (hentries : s.table.entries ≠ []) :
    minuteSweep s = setWalk (some (.sweep (presentCreds s) 0)) s := by
  obtain ⟨c, cs, hcreds⟩ : ∃ c cs, presentCreds s = c :: cs :=
    List.exists_cons_of_ne_nil (by simpa [presentCreds] using hentries)
  simp only [minuteSweep, hwalk, hwaiting, hcreds]
  rfl

theorem minuteSweep_skip (h : s.table.walk ≠ none ∨ s.table.waiting ≠ none) :
    minuteSweep s = tableRecord .sweepSkipped none .none s := by
  unfold minuteSweep
  split
  · simp_all
  · rfl

/-- No record and no sweep but at the wrap and at a minute boundary. -/
theorem handAdvance_quiet {former : ClockUnit} (hwrap : former.secs ≠ 0xFFFFFFFF) (hminute : crossesMinute former s.clock = false) :
    handAdvance former s = s := by
  simp only [handAdvance, if_neg hwrap, hminute]
  rfl

theorem handAdvance_minute {former : ClockUnit} (hwrap : former.secs ≠ 0xFFFFFFFF) (hminute : crossesMinute former s.clock = true) :
    handAdvance former s = minuteSweep s := by
  simp only [handAdvance, if_neg hwrap, hminute, if_true]

/-- At the wrap the flag goes UNSET, so no minute boundary is handed on. -/
theorem handAdvance_wrap {former : ClockUnit} (hwrap : former.secs = 0xFFFFFFFF) (hunset : s.clock.set = false) :
    handAdvance former s = notifyAll .clock (clockRecord .wrapped .none s) := by
  have hminute : crossesMinute former (notifyAll .clock (clockRecord .wrapped .none s)).clock = false := by
    change crossesMinute former s.clock = false
    simp [crossesMinute, hunset]
  simp only [handAdvance, if_pos hwrap, hminute]
  rfl

theorem handAdvance_clock {former : ClockUnit} : (handAdvance former s).clock = s.clock :=
  (handAdvance_keeps (b := .clock) (by simp)).mpr rfl

theorem ClockUnit.advance_set_of_ne {c : ClockUnit} (h : c.secs ≠ 0xFFFFFFFF) : c.advance.set = c.set := by
  rw [ClockUnit.advance, bne_iff_ne.mpr h, Bool.and_true]

theorem ClockUnit.advance_crosses {c : ClockUnit} (h : c.secs ≠ 0xFFFFFFFF) :
    crossesMinute c c.advance = (c.set && (c.secs + 1).toNat % 60 == 0) := by
  rw [crossesMinute, ClockUnit.advance_set_of_ne h, Bool.and_self]
  rfl

/-- Settles O21: before its time, in reset, at the wrap, within a minute and at its boundary. -/
theorem clockAdvance : Obligations.ClockAdvance := by
  intro s
  refine ⟨exec_clockAdvance_early, fun hdue => ⟨_, exec_clockAdvance_due hdue, ?_, fun hr => ?_, fun hr hwrap => ?_,
    fun hr hwrap => ⟨fun hquiet => ?_, fun hset hminute => ?_⟩⟩⟩
  · split
    · rfl
    · rw [handAdvance_clock]
      rfl
  · rw [if_pos hr]
    rfl
  · have hunset : (onClock ClockUnit.advance s).clock.set = false := by simp [ClockUnit.advance, hwrap]
    have hstamp : (onClock ClockUnit.advance s).stamp = .unset := by rw [State.stamp, hunset]; rfl
    rw [if_neg (by simp [hr]), handAdvance_wrap hwrap hunset]
    refine ⟨?_, rfl, rfl⟩
    change s.mail.records ++ [(Source.clock, ({ time := (onClock ClockUnit.advance s).stamp, code := .clock .wrapped } : Record))]
      = _
    rw [hstamp]
  · have hno : crossesMinute s.clock (onClock ClockUnit.advance s).clock = false := by
      refine (ClockUnit.advance_crosses hwrap).trans ?_
      rcases hquiet with hset | hminute
      · rw [hset, Bool.false_and]
      · rw [beq_eq_false_iff_ne.mpr hminute, Bool.and_false]
    rw [if_neg (by simp [hr]), handAdvance_quiet hwrap hno]
    rfl
  · have hyes : crossesMinute s.clock (onClock ClockUnit.advance s).clock = true := by
      refine (ClockUnit.advance_crosses hwrap).trans ?_
      rw [hset, hminute]
      rfl
    rw [if_neg (by simp [hr]), handAdvance_minute hwrap hyes]
    refine ⟨fun hwalk hwaiting hentries => ?_, fun hbusy => ?_⟩
    · rw [minuteSweep_start (s := onClock ClockUnit.advance s) hwalk hwaiting hentries]
      exact ⟨rfl, rfl⟩
    · have hstamp : (onClock ClockUnit.advance s).stamp = .time (s.clock.secs + 1) := by
        rw [State.stamp]
        exact if_pos ((ClockUnit.advance_set_of_ne hwrap).trans hset)
      rw [minuteSweep_skip (s := onClock ClockUnit.advance s) hbusy, tableRecord, hstamp]
      exact ⟨rfl, rfl⟩

/-! ## The requests at the clock -/

theorem exec_setClock {v : Secs} (h : Asked p (.setClock v) s) : exec (.setClock p) s = .next (setClock p v (taken p s)) := by
  refine (running_of_not_resetHeld h.1 _).trans ?_
  simp only [h.2, takenByBlock, taken]

theorem exec_setClockSource {x : Byte} (h : Asked p (.setClockSource x) s) : exec (.setClockSource p) s
    = .next (match ClockSource.ofNum x.toNat with
      | some c => answer p .ok [] { taken p s with clock := { s.clock with source := c } }
      | none => answer p .badField [] (taken p s)) := by
  refine (running_of_not_resetHeld h.1 _).trans ?_
  simp only [h.2, takenByBlock, taken]
  rfl

theorem exec_readClock (h : Asked p .readClock s) : exec (.readClock p) s = .next (readClock p (taken p s)) := by
  refine (running_of_not_resetHeld h.1 _).trans ?_
  simp only [h.2, takenByBlock, taken]

theorem answer_reply {st : Status} {body : List Byte} : (answer p st body s).mail.replies.get p = some (replyBytes st body) :=
  PerPort.get_set_self ..

/-- Settles O22: SET_CLOCK takes the value, SET_CLOCK_SOURCE by its byte, READ_CLOCK by the port. -/
theorem clockRequests : Obligations.ClockRequests := by
  intro p s
  refine ⟨fun v h => ⟨_, exec_setClock h, rfl, answer_reply, rfl⟩, fun x h => ?_, fun h => ?_⟩
  · rw [exec_setClockSource h]
    refine ⟨fun hx => ?_, fun hx => ?_, fun hx => ?_⟩
    · rw [hx]
      rfl
    · rw [hx]
      rfl
    · obtain ⟨n, hn⟩ : ∃ n, x.toNat = n + 2 := ⟨x.toNat - 2, by omega⟩
      rw [hn]
      rfl
  · rw [exec_readClock h]
    by_cases hp : p = .security
    · simp only [readClock, if_pos hp]
      rfl
    · simp only [readClock, if_neg hp]
      rfl

/-! ## Beacons -/

theorem exec_timeBeacon {v : Secs} {rest : List Secs} (h : s.resetHeld = false) (hm : s.mail.beacons = v :: rest) :
    exec .timeBeacon s = .next (takeBeacon v (s.onMail (fun m => { m with beacons := rest }))) := by
  refine (running_of_not_resetHeld h _).trans ?_
  simp only [hm]

theorem gap_eq_zero {a b : Secs} : gap a b = 0 ↔ b = a := by
  rw [← BitVec.toNat_inj]
  unfold gap
  split <;> omega

theorem gap_le_iff {a b : Secs} {n : Nat} : gap a b ≤ n ↔ b.toNat ≤ a.toNat + n ∧ a.toNat ≤ b.toNat + n := by
  unfold gap
  split <;> omega

theorem takeBeacon_securityOnly {v : Secs} (h : s.clock.source = .securityOnly) : takeBeacon v s = s := by
  simp only [takeBeacon, h]

theorem takeBeacon_unset {v : Secs} (h : s.clock.source = .beacon) (hset : s.clock.set = false) :
    takeBeacon v s = clockRecord .beaconSet (.clock s.clock.secs true) (takeTime v s) := by
  simp only [takeBeacon, h, hset]

theorem takeBeacon_set {v : Secs} (h : s.clock.source = .beacon) (hset : s.clock.set = true) :
    takeBeacon v s = if gap s.clock.secs v = 0 then takeTime v s
      else if gap s.clock.secs v ≤ Config.beaconStep then
        clockRecord .beaconStep (.clock s.clock.secs false) (takeTime v s)
      else notifyAll .clock (clockRecord .beaconRejected (.clock v false)
        (onClock (fun c => { c with disagree := saturate c.disagree }) s)) := by
  simp only [takeBeacon, h, hset]

theorem takeTime_clock_of_set {v : Secs} (hset : s.clock.set = true) :
    (takeTime v s).clock = { s.clock with secs := v, mark := s.time } := by
  change { s.clock with secs := v, set := true, mark := s.time } = _
  rw [← hset]

theorem takeBeacon_beacons {v : Secs} : (takeBeacon v s).mail.beacons = s.mail.beacons := by
  cases hsource : s.clock.source with
  | securityOnly => rw [takeBeacon_securityOnly hsource]
  | beacon =>
    cases hset : s.clock.set with
    | false => rw [takeBeacon_unset hsource hset]; rfl
    | true =>
      rw [takeBeacon_set hsource hset]
      split
      · rfl
      · split <;> rfl

/-- Settles O23: the clock's source and flag, then the gap between the two values. -/
theorem beaconAtClock : Obligations.BeaconAtClock := by
  intro s v rest h hm
  let u := s.onMail (fun m => { m with beacons := rest })
  refine ⟨_, exec_timeBeacon h hm, takeBeacon_beacons, fun hsource => ?_, fun hsource hset => ?_, fun hsource hset => ?_⟩
  · rw [takeBeacon_securityOnly (s := u) hsource]
    exact ⟨rfl, rfl, rfl⟩
  · rw [takeBeacon_unset (s := u) hsource hset]
    exact ⟨rfl, rfl⟩
  · rw [takeBeacon_set (s := u) hsource hset]
    have hclock : u.clock = s.clock := rfl
    rw [hclock]
    refine ⟨fun heq => ?_, fun hne hle hge => ?_, fun hfar => ?_⟩
    · rw [if_pos (gap_eq_zero.mpr heq)]
      subst heq
      exact ⟨takeTime_clock_of_set (s := u) hset, rfl⟩
    · rw [if_neg (mt gap_eq_zero.mp hne), if_pos (show gap s.clock.secs v ≤ Config.beaconStep from gap_le_iff.mpr ⟨hle, hge⟩)]
      exact ⟨takeTime_clock_of_set (s := u) hset, rfl, rfl⟩
    · have hgap : ¬ gap s.clock.secs v ≤ Config.beaconStep := by
        rw [gap_le_iff, Config.beaconStep]
        omega
      rw [if_neg (by omega), if_neg hgap]
      refine ⟨rfl, ?_, rfl⟩
      have hstamp : s.stamp = .time s.clock.secs := by rw [State.stamp, if_pos hset]
      rw [← hstamp]
      rfl

end Sys2Proof.Machine
end

section
/-!
SUPPORT. The lane sequencer's shared operations: what they leave of a lane, and what they make of its windows.
-/
namespace Sys2Proof.Machine

variable {s : State} {l m : Lane}

/-! ## What the end of an event leaves of a lane -/

/-- A lane without what the end of an event works out again: its windows, its travel direction and pace mark, its wanted
command, its clear timer and its displays. -/
def LaneUnit.rest (u : LaneUnit) : LaneUnit :=
  { u with windows := [], travel := none, paceMark := none, wanted := none, clearDue := none, awaitingReset := false,
           outer := .reset, inner := .reset }

theorem onLane_rest {f : LaneUnit → LaneUnit} (hf : (f (s.lane l)).rest = (s.lane l).rest) :
    ((s.onLane l f).lane m).rest = (s.lane m).rest := by
  by_cases h : m = l
  · subst h
    rw [State.lane_onLane_self, hf]
  · rw [State.lane_onLane_ne _ _ h]

@[simp] theorem LaneUnit.onDisplay_rest {u : LaneUnit} {rd : Reader} {f : Display → Display} :
    (u.onDisplay rd f).rest = u.rest := by cases rd <;> rfl

@[simp] theorem onDisplay_lane_rest {rd : Reader} {f : Display → Display} :
    ((s.onLane l (fun u => u.onDisplay rd f)).lane m).rest = (s.lane m).rest := onLane_rest LaneUnit.onDisplay_rest

@[simp] theorem ask_rest {rd : Reader} {i : Indication} : ((ask l rd i s).lane m).rest = (s.lane m).rest :=
  onLane_rest LaneUnit.onDisplay_rest

@[simp] theorem askBoth_rest {i : Indication} : ((askBoth l i s).lane m).rest = (s.lane m).rest := by simp [askBoth]

@[simp] theorem askEscort_rest {i : Indication} : ((askEscort l i s).lane m).rest = (s.lane m).rest := by
  unfold askEscort
  split <;> simp

@[simp] theorem showNow_rest {rd : Reader} {i : Indication} : ((showNow l rd i s).lane m).rest = (s.lane m).rest := by
  simp [showNow]

@[simp] theorem settleDisplay_rest {rd : Reader} : ((settleDisplay l rd s).lane m).rest = (s.lane m).rest := by
  unfold settleDisplay
  split
  · rfl
  · dsimp only
    repeat' split
    all_goals simp

@[simp] theorem clearDisplay_rest {rd : Reader} : ((clearDisplay l rd s).lane m).rest = (s.lane m).rest := by
  simp [clearDisplay]

@[simp] theorem clearDisplays_rest : ((clearDisplays l s).lane m).rest = (s.lane m).rest := by simp [clearDisplays]

@[simp] theorem onWindow_rest {t : Tag} {f : Window → Window} : ((onWindow l t f s).lane m).rest = (s.lane m).rest :=
  onLane_rest rfl

@[simp] theorem openWindow_rest {w : Window} : ((openWindow l w s).lane m).rest = (s.lane m).rest := by
  unfold openWindow
  dsimp only
  rw [ask_rest, onLane_rest rfl, onWindow_rest]

@[simp] theorem paceTest_rest {w : Window} : ((paceTest l w s).lane m).rest = (s.lane m).rest := by
  unfold paceTest
  split <;> simp

@[simp] theorem startWindow_rest {w : Window} : ((startWindow l w s).lane m).rest = (s.lane m).rest := by
  unfold startWindow
  split <;> simp

@[simp] theorem settleWindows_rest {ws : List Window} : ((settleWindows l ws s).lane m).rest = (s.lane m).rest := by
  induction ws generalizing s with
  | nil => rfl
  | cons w r ih =>
    rw [settleWindows, ih]
    split <;> simp

@[simp] theorem settleTravel_rest : ((settleTravel l s).lane m).rest = (s.lane m).rest :=
  onLane_rest (by split <;> rfl)

theorem LaneUnit.settleClear_rest {n : Nat} {u : LaneUnit} : (u.settleClear n).rest = u.rest := by
  unfold LaneUnit.settleClear
  repeat' split
  all_goals rfl

@[simp] theorem settleWanted_rest : ((settleWanted l s).lane m).rest = (s.lane m).rest := by
  unfold settleWanted
  dsimp only
  split
  · rfl
  · rw [(State.onLine_reads ..).1, onLane_rest rfl]

/-- The end of an event leaves the rest of every lane. -/
@[simp] theorem endEvent_rest : ((endEvent l s).lane m).rest = (s.lane m).rest := by
  unfold endEvent
  dsimp only
  rw [settleDisplay_rest, settleDisplay_rest, settleWanted_rest, onLane_rest LaneUnit.settleClear_rest]
  split
  · rw [settleWindows_rest, settleTravel_rest]
  · exact settleTravel_rest

@[simp] theorem askEnd_rest {w : Window} {o : WinOutcome} : ((askEnd l w o s).lane m).rest = (s.lane m).rest := by
  unfold askEnd
  split <;> simp

@[simp] theorem claimFirst_lane {q : FirstOp} : (claimFirst q s).lane m = s.lane m := rfl

@[simp] theorem endWindow_rest {w : Window} {o : WinOutcome} : ((endWindow l w o s).lane m).rest = (s.lane m).rest := by
  unfold endWindow
  split <;> simp

@[simp] theorem endWindows_rest {o : WinOutcome} {ws : List Window} :
    ((endWindows l o ws s).lane m).rest = (s.lane m).rest := by
  induction ws generalizing s with
  | nil => rfl
  | cons w r ih => rw [endWindows, ih, endWindow_rest]

@[simp] theorem endWhere_rest {f : Window → Bool} {o : WinOutcome} :
    ((endWhere l f o s).lane m).rest = (s.lane m).rest := endWindows_rest

@[simp] theorem endAll_rest {o : WinOutcome} : ((endAll l o s).lane m).rest = (s.lane m).rest := endWhere_rest

@[simp] theorem leaveAssigning_rest {w : Window} : ((leaveAssigning l w s).lane m).rest = (s.lane m).rest := by
  unfold leaveAssigning
  split <;> simp

@[simp] theorem leaveAll_rest {ws : List Window} : ((leaveAll l ws s).lane m).rest = (s.lane m).rest := by
  induction ws generalizing s with
  | nil => rfl
  | cons w r ih => rw [leaveAll, ih, leaveAssigning_rest]

@[simp] theorem retestPaced_rest {ws : List Window} : ((retestPaced l ws s).lane m).rest = (s.lane m).rest := by
  induction ws generalizing s with
  | nil => rfl
  | cons w r ih =>
    rw [retestPaced, ih]
    split <;> simp

@[simp] theorem endEvents_rest {ls : List Lane} : ((endEvents ls s).lane m).rest = (s.lane m).rest := by
  induction ls generalizing s with
  | nil => rfl
  | cons l r ih => rw [endEvents, ih, endEvent_rest]

@[simp] theorem settleOuter_rest {ls : List Lane} : ((settleOuter ls s).lane m).rest = (s.lane m).rest := by
  induction ls generalizing s with
  | nil => rfl
  | cons l r ih => rw [settleOuter, ih, settleDisplay_rest]

/-- Two lanes with the same rest have the same state, settings, zones, counters, and the other fields of it. -/
theorem LaneUnit.fields_of_rest {u v : LaneUnit} (h : u.rest = v.rest) : u.state = v.state ∧ u.settings = v.settings
    ∧ u.reservation = v.reservation ∧ u.nextSerial = v.nextSerial ∧ u.leafPos = v.leafPos ∧ u.zones = v.zones
    ∧ u.obstruction = v.obstruction ∧ u.obstructDue = v.obstructDue ∧ u.restoring = v.restoring ∧ u.counters = v.counters
    ∧ u.decision = v.decision ∧ u.action = v.action ∧ u.acknowledged = v.acknowledged ∧ u.alarmReason = v.alarmReason := by
  simp only [LaneUnit.rest, LaneUnit.mk.injEq] at h
  simp [h]

/-! ## Windows that go on -/

/-- A window without its state and its open and transit timers. -/
def Window.fixed (w : Window) : Window := { w with state := .queued, openDue := none, transitDue := none }

theorem Window.fields_of_fixed {v w : Window} (h : v.fixed = w.fixed) : v.tag = w.tag ∧ v.cred = w.cred ∧ v.cls = w.cls
    ∧ v.dir = w.dir ∧ v.origin = w.origin ∧ v.retreats = w.retreats ∧ v.pastLeaf = w.pastLeaf ∧ v.passback = w.passback
    ∧ v.call = w.call ∧ v.car = w.car ∧ v.outcome = w.outcome ∧ v.callDue = w.callDue := by
  simp only [Window.fixed, Window.mk.injEq] at h
  simp [h]

/-- The windows `vs` are the windows `ws` in their order, where only those in QUEUED, or with the tag of one in QUEUED, may
have gone on to another state. -/
def GoneOn (ws vs : List Window) : Prop :=
  ∃ f : Window → Window, vs = ws.map f ∧ (∀ w, (f w).fixed = w.fixed)
    ∧ ∀ w ∈ ws, (∀ x ∈ ws, x.tag = w.tag → x.state ≠ .queued) → f w = w

theorem GoneOn.refl (ws : List Window) : GoneOn ws ws := ⟨id, (List.map_id ws).symm, fun _ => rfl, fun _ _ _ => rfl⟩

theorem GoneOn.trans {ws vs zs : List Window} (h : GoneOn ws vs) (k : GoneOn vs zs) : GoneOn ws zs := by
  obtain ⟨f, rfl, hfixed, hkept⟩ := h
  obtain ⟨g, rfl, gfixed, gkept⟩ := k
  refine ⟨g ∘ f, by rw [List.map_map], fun w => (gfixed _).trans (hfixed w), fun w hw hnone => ?_⟩
  have hfw : f w = w := hkept w hw hnone
  have hgw : g (f w) = f w := by
    refine gkept (f w) (List.mem_map_of_mem hw) fun y hy hytag => ?_
    obtain ⟨x, hx, rfl⟩ := List.mem_map.mp hy
    have htags (z : Window) : (f z).tag = z.tag := (Window.fields_of_fixed (hfixed z)).1
    rw [htags, htags] at hytag
    have hfx : f x = x := hkept x hx fun z hz hztag => hnone z hz (hztag.trans hytag)
    rw [hfx]
    exact hnone x hx hytag
  rw [Function.comp_apply, hgw, hfw]

theorem GoneOn.length_eq {ws vs : List Window} (h : GoneOn ws vs) : vs.length = ws.length := by
  obtain ⟨f, rfl, _⟩ := h
  exact List.length_map ..

/-- A window whose tag names none in QUEUED stays as it is. -/
theorem GoneOn.mem {ws vs : List Window} {w : Window} (h : GoneOn ws vs) (hw : w ∈ ws)
    (hnone : ∀ x ∈ ws, x.tag = w.tag → x.state ≠ .queued) : w ∈ vs := by
  obtain ⟨f, rfl, -, hkept⟩ := h
  exact List.mem_map.mpr ⟨w, hw, hkept w hw hnone⟩

theorem GoneOn.singleton {w : Window} {vs : List Window} (h : GoneOn [w] vs) (hw : w.state ≠ .queued) : vs = [w] := by
  obtain ⟨f, rfl, -, hkept⟩ := h
  rw [List.map_singleton, hkept w (List.mem_singleton_self w) fun x hx _ => by rw [List.mem_singleton.mp hx]; exact hw]

/-- The window that a tag names is the same but for its state and timers. -/
theorem GoneOn.find {ws vs : List Window} {t : Tag} (h : GoneOn ws vs) :
    (vs.find? (fun w => w.tag == t)).map Window.fixed = (ws.find? (fun w => w.tag == t)).map Window.fixed := by
  obtain ⟨f, rfl, hfixed, -⟩ := h
  have htags (z : Window) : (f z).tag = z.tag := (Window.fields_of_fixed (hfixed z)).1
  rw [List.find?_map, Option.map_map]
  have htest : ((fun w : Window => w.tag == t) ∘ f) = fun w => w.tag == t := funext fun w => by simp [htags]
  rw [htest]
  exact congrFun (congrArg Option.map (funext hfixed)) _

theorem LaneUnit.onDisplay_windows {u : LaneUnit} {rd : Reader} {f : Display → Display} :
    (u.onDisplay rd f).windows = u.windows := by cases rd <;> rfl

theorem onLane_windows {f : LaneUnit → LaneUnit} (hf : (f (s.lane l)).windows = (s.lane l).windows) :
    ((s.onLane l f).lane m).windows = (s.lane m).windows := by
  by_cases h : m = l
  · subst h
    rw [State.lane_onLane_self, hf]
  · rw [State.lane_onLane_ne _ _ h]

@[simp] theorem onDisplay_lane_windows {rd : Reader} {f : Display → Display} :
    ((s.onLane l (fun u => u.onDisplay rd f)).lane m).windows = (s.lane m).windows :=
  onLane_windows LaneUnit.onDisplay_windows

@[simp] theorem ask_windows {rd : Reader} {i : Indication} : ((ask l rd i s).lane m).windows = (s.lane m).windows :=
  onLane_windows LaneUnit.onDisplay_windows

@[simp] theorem askBoth_windows {i : Indication} : ((askBoth l i s).lane m).windows = (s.lane m).windows := by
  simp [askBoth]

@[simp] theorem askEscort_windows {i : Indication} : ((askEscort l i s).lane m).windows = (s.lane m).windows := by
  unfold askEscort
  split <;> simp

@[simp] theorem showNow_windows {rd : Reader} {i : Indication} : ((showNow l rd i s).lane m).windows = (s.lane m).windows := by
  simp [showNow]

@[simp] theorem settleDisplay_windows {rd : Reader} : ((settleDisplay l rd s).lane m).windows = (s.lane m).windows := by
  unfold settleDisplay
  split
  · rfl
  · dsimp only
    repeat' split
    all_goals simp

@[simp] theorem clearDisplay_windows {rd : Reader} : ((clearDisplay l rd s).lane m).windows = (s.lane m).windows := by
  simp [clearDisplay]

@[simp] theorem clearDisplays_windows : ((clearDisplays l s).lane m).windows = (s.lane m).windows := by
  simp [clearDisplays]

theorem onWindow_windows {t : Tag} {f : Window → Window} :
    ((onWindow l t f s).lane l).windows = mapWindow t f (s.lane l).windows := by simp [onWindow]

/-- A window in OPEN, with the open timer that starts there (R59). -/
def Window.opening (due : Nat) (w : Window) : Window := { w with state := .opened, openDue := some due, transitDue := none }

theorem openWindow_windows {w : Window} : ((openWindow l w s).lane l).windows
    = mapWindow w.tag (Window.opening (s.after ((s.lane l).settings.openTime * 1000))) (s.lane l).windows := by
  unfold openWindow
  dsimp only
  rw [ask_windows, onLane_windows rfl, onWindow_windows]
  rfl

/-- What the pace test makes of a window (R58). -/
def Window.tested (s : State) (l : Lane) (d : Direction) (w : Window) : Window :=
  if paceHolds s l d then { w with state := .paced } else w.opening (s.after ((s.lane l).settings.openTime * 1000))

theorem paceTest_windows {w : Window} :
    ((paceTest l w s).lane l).windows = mapWindow w.tag (Window.tested s l w.dir) (s.lane l).windows := by
  unfold paceTest
  split
  · rename_i h
    rw [ask_windows, onWindow_windows]
    simp [mapWindow, Window.tested, h]
  · rename_i h
    rw [openWindow_windows]
    simp [mapWindow, Window.tested, h]

theorem Window.tested_fixed {d : Direction} {w : Window} : (w.tested s l d).fixed = w.fixed := by
  unfold Window.tested
  split <;> rfl

/-- What leaving QUEUED makes of a window (R57). -/
theorem startWindow_windows {w : Window} : ∃ f : Window → Window, (∀ x, (f x).fixed = x.fixed)
    ∧ ((startWindow l w s).lane l).windows = mapWindow w.tag f (s.lane l).windows := by
  unfold startWindow
  split
  · exact ⟨fun x => { x with state := .assigning }, fun _ => rfl, by rw [ask_windows, onWindow_windows]⟩
  · exact ⟨_, fun _ => Window.tested_fixed, paceTest_windows⟩

theorem eligible_queued {u : LaneUnit} {overlap : Bool} {t : Tag} (h : eligible u overlap t = true) :
    ∃ x ∈ u.windows, x.tag = t ∧ x.state = .queued := by
  unfold eligible at h
  split at h
  · exact absurd h (by simp)
  · rename_i x r hws
    rw [hws]
    split at h
    · rename_i htag
      exact ⟨x, List.mem_cons_self .., beq_iff_eq.mp htag, by simp_all⟩
    · split at h
      · exact absurd h (by simp)
      · rename_i w _
        simp only [Bool.and_eq_true, beq_iff_eq] at h
        obtain ⟨⟨⟨⟨htag, hqueued⟩, -⟩, -⟩, -⟩ := h
        exact ⟨w, by simp, htag, hqueued⟩

theorem settleWindows_goneOn {ws : List Window} : GoneOn (s.lane l).windows ((settleWindows l ws s).lane l).windows := by
  induction ws generalizing s with
  | nil => exact .refl _
  | cons w r ih =>
    rw [settleWindows]
    refine GoneOn.trans ?_ ih
    split
    · rename_i heligible
      obtain ⟨x, hx, htag, hqueued⟩ := eligible_queued heligible
      obtain ⟨f, hfixed, hf⟩ := startWindow_windows (s := s) (l := l) (w := w)
      refine ⟨fun y => if y.tag == w.tag then f y else y, hf, fun y => ?_, fun y _ hnone => ?_⟩
      · dsimp only
        split
        · exact hfixed y
        · rfl
      · have hne : y.tag ≠ w.tag := fun hy => hnone x hx (htag.trans hy.symm) hqueued
        simp [hne]
    · exact .refl _

@[simp] theorem settleTravel_windows : ((settleTravel l s).lane m).windows = (s.lane m).windows :=
  onLane_windows (by split <;> rfl)

@[simp] theorem settleWanted_windows : ((settleWanted l s).lane m).windows = (s.lane m).windows := by
  unfold settleWanted
  dsimp only
  split
  · rfl
  · rw [(State.onLine_reads ..).1, onLane_windows rfl]

/-- The end of an event moves on no windows but those in QUEUED (R56). -/
theorem endEvent_goneOn : GoneOn (s.lane m).windows ((endEvent l s).lane m).windows := by
  by_cases h : m = l
  · subst h
    unfold endEvent
    dsimp only
    rw [settleDisplay_windows, settleDisplay_windows, settleWanted_windows, onLane_windows (settleClear_keeps ..).1]
    split
    · have hmoved := settleWindows_goneOn (s := settleTravel m s) (l := m) (ws := ((settleTravel m s).lane m).windows)
      rw [settleTravel_windows] at hmoved
      rwa [settleTravel_windows]
    · rw [settleTravel_windows]
      exact .refl _
  · have hsame : (endEvent l s).lane m = s.lane m := (endEvent_keeps (b := .lane m) (by simpa using h)).mpr rfl
    rw [hsame]
    exact .refl _

theorem endEvents_goneOn {ls : List Lane} : GoneOn (s.lane m).windows ((endEvents ls s).lane m).windows := by
  induction ls generalizing s with
  | nil => exact .refl _
  | cons l r ih => exact (endEvent_goneOn (l := l)).trans ih

/-! ## Windows that end -/

/-- The posting of a window that ended with an outcome (R70). -/
def Window.posting (o : WinOutcome) (w : Window) : FirstOp := .posting ⟨w.tag, w.cred, w.dir, o⟩

@[simp] theorem askEnd_windows {w : Window} {o : WinOutcome} : ((askEnd l w o s).lane m).windows = (s.lane m).windows := by
  unfold askEnd
  split <;> simp

@[simp] theorem askEnd_arbiter {w : Window} {o : WinOutcome} : (askEnd l w o s).arbiter = s.arbiter :=
  (askEnd_keeps (b := .arbiter) (by simp)).mpr rfl

theorem endWindow_of_closing {w : Window} {o : WinOutcome} (h : w.state = .closing) : endWindow l w o s = s := if_pos h

theorem endWindow_windows {w : Window} {o : WinOutcome} (h : w.state ≠ .closing) :
    ((endWindow l w o s).lane l).windows = mapWindow w.tag (Window.ended o) (s.lane l).windows := by
  rw [endWindow, if_neg h, askEnd_windows, claimFirst_lane, onWindow_windows]

theorem endWindow_arbiter {w : Window} {o : WinOutcome} (h : w.state ≠ .closing) :
    (endWindow l w o s).arbiter = { s.arbiter with first := s.arbiter.first ++ [w.posting o] } := by
  rw [endWindow, if_neg h, askEnd_arbiter]
  rfl

theorem Window.ended_ended {o : WinOutcome} {w : Window} : (w.ended o).ended o = w.ended o := rfl

/-- One of the windows of a list that are not in CLOSING has the tag. -/
def endsTag (ws : List Window) (t : Tag) : Bool := ws.any (fun w => w.state != .closing && w.tag == t)

theorem endWindows_windows {o : WinOutcome} {ws : List Window} : ((endWindows l o ws s).lane l).windows
    = (s.lane l).windows.map (fun x => if endsTag ws x.tag then x.ended o else x) := by
  induction ws generalizing s with
  | nil => simp [endWindows, endsTag]
  | cons w r ih =>
    rw [endWindows, ih]
    by_cases h : w.state = .closing
    · rw [endWindow_of_closing h]
      simp [endsTag, h]
    · rw [endWindow_windows h, mapWindow, List.map_map]
      refine List.map_congr_left fun x _ => ?_
      by_cases hx : x.tag = w.tag
      · have hends : endsTag (w :: r) x.tag = true := by simp [endsTag, h, hx]
        have htag : (x.ended o).tag = x.tag := rfl
        simp only [Function.comp_apply, hx, beq_self_eq_true, if_true]
        rw [← hx, hends, htag]
        split <;> rfl
      · have hends : endsTag (w :: r) x.tag = endsTag r x.tag := by simp [endsTag, Ne.symm hx]
        simp [hx, hends]

theorem endWindows_arbiter {o : WinOutcome} {ws : List Window} : (endWindows l o ws s).arbiter = { s.arbiter with
    first := s.arbiter.first ++ (ws.filter (fun w => w.state != .closing)).map (Window.posting o) } := by
  induction ws generalizing s with
  | nil => simp [endWindows]
  | cons w r ih =>
    rw [endWindows, ih]
    by_cases h : w.state = .closing
    · rw [endWindow_of_closing h]
      simp [h]
    · rw [endWindow_arbiter h]
      simp [h]

theorem endWhere_windows {f : Window → Bool} {o : WinOutcome} : ((endWhere l f o s).lane l).windows
    = (s.lane l).windows.map (fun x => if endsTag ((s.lane l).windows.filter f) x.tag then x.ended o else x) :=
  endWindows_windows

/-- Each window that an event ends has its posting claimed (R70). -/
theorem endWhere_posting {f : Window → Bool} {o : WinOutcome} {w : Window} (hw : w ∈ (s.lane l).windows) (hf : f w = true)
    (hopen : w.state ≠ .closing) : w.posting o ∈ (endWhere l f o s).arbiter.first := by
  rw [endWhere, endWindows_arbiter]
  refine List.mem_append_right _ (List.mem_map_of_mem ?_)
  simp [hw, hf, hopen]

theorem endWhere_first {f : Window → Bool} {o : WinOutcome} {x : FirstOp} (hx : x ∈ s.arbiter.first) :
    x ∈ (endWhere l f o s).arbiter.first := by
  rw [endWhere, endWindows_arbiter]
  exact List.mem_append_left _ hx

/-- A window that an event ended is in CLOSING with its outcome, and so is every window of its tag (R70). -/
theorem endWhere_ended {f : Window → Bool} {o : WinOutcome} {w : Window} (hw : w ∈ (s.lane l).windows) (hf : f w = true)
    (hopen : w.state ≠ .closing) : w.ended o ∈ ((endWhere l f o s).lane l).windows
      ∧ ∀ x ∈ ((endWhere l f o s).lane l).windows, x.tag = w.tag → x.state = .closing := by
  have hends : endsTag ((s.lane l).windows.filter f) w.tag = true := by
    rw [endsTag, List.any_eq_true]
    exact ⟨w, List.mem_filter.mpr ⟨hw, hf⟩, by simp [hopen]⟩
  rw [endWhere_windows]
  refine ⟨List.mem_map.mpr ⟨w, hw, by rw [hends]; rfl⟩, fun x hx htag => ?_⟩
  obtain ⟨y, -, rfl⟩ := List.mem_map.mp hx
  by_cases hy : endsTag ((s.lane l).windows.filter f) y.tag = true
  · simp only [hy, if_true]
    rfl
  · simp only [hy] at htag
    exact absurd (htag ▸ hends) hy

theorem WinState.ne_closing_of_beforeTransit {st : WinState} (h : st.beforeTransit = true) : st ≠ .closing := by
  rintro rfl
  exact absurd h (by decide)

/-! ## Changes of lane state, reservations and places -/

theorem endReservation_lane {f : Reservation → Bool} {st : Status} {body : List Byte} :
    ∃ r, (endReservation l f st body s).lane m = { s.lane m with reservation := r } := by
  unfold endReservation
  split
  · split
    · by_cases h : m = l
      · subst h
        exact ⟨none, State.lane_onLane_self s m (fun u => { u with reservation := none })⟩
      · exact ⟨_, State.lane_onLane_ne s (fun u => { u with reservation := none }) h⟩
    · exact ⟨_, rfl⟩
  · exact ⟨_, rfl⟩

theorem offerPlace_lane : ∃ r, (offerPlace l s).lane m = { s.lane m with reservation := r } := by
  unfold offerPlace
  split
  · exact ⟨_, rfl⟩
  · split
    · by_cases h : m = l
      · subst h
        exact ⟨none, State.lane_onLane_self s m (fun u => { u with reservation := none })⟩
      · exact ⟨_, State.lane_onLane_ne s (fun u => { u with reservation := none }) h⟩
    · repeat' split
      all_goals exact ⟨_, rfl⟩

theorem offerPlaces_lane : ∃ r, (offerPlaces l s).lane m = { s.lane m with reservation := r } := by
  obtain ⟨q, hq⟩ := offerPlace_lane (s := s) (l := l) (m := m)
  obtain ⟨r, hr⟩ := offerPlace_lane (s := offerPlace l s) (l := l) (m := m)
  exact ⟨r, by rw [offerPlaces, hr, hq]⟩

theorem changeState_of_eq {new : LaneState} (h : (s.lane l).state = new) : changeState l new s = s := if_pos h

/-- A lane that enters another state: the fields that belong to the state follow it, and a reservation may end (R47, R48). -/
theorem changeState_lane {new : LaneState} (h : (s.lane l).state ≠ new) : ∃ r, (changeState l new s).lane l
    = { (s.lane l).enter new (s.after Config.obstructionLimit) with reservation := r } := by
  unfold changeState
  rw [if_neg h]
  dsimp only
  generalize hs' : (if ((s.lane l).state.inService && new.inService || new == .alarm) = true then _ else _) = s'
  have hlane : s'.lane l = (s.lane l).enter new (s.after Config.obstructionLimit) := by
    rw [← hs']
    split <;> exact State.lane_onLane_self ..
  rw [← hlane]
  split
  · exact ⟨_, rfl⟩
  · split <;> exact endReservation_lane

theorem changeState_lane_ne {new : LaneState} (h : m ≠ l) : (changeState l new s).lane m = s.lane m :=
  (changeState_keeps (b := .lane m) (by simp [h])).mpr rfl

theorem changeState_state {new : LaneState} : ((changeState l new s).lane l).state = new := by
  by_cases h : (s.lane l).state = new
  · rw [changeState_of_eq h, h]
  · obtain ⟨r, hr⟩ := changeState_lane h
    rw [hr]
    rfl

@[simp] theorem changeState_windows {new : LaneState} : ((changeState l new s).lane m).windows = (s.lane m).windows := by
  by_cases hm : m = l
  · subst hm
    by_cases h : (s.lane m).state = new
    · rw [changeState_of_eq h]
    · obtain ⟨r, hr⟩ := changeState_lane h
      rw [hr]
      rfl
  · rw [changeState_lane_ne hm]

@[simp] theorem offerPlaces_windows : ((offerPlaces l s).lane m).windows = (s.lane m).windows := by
  obtain ⟨r, hr⟩ := offerPlaces_lane (s := s) (l := l) (m := m)
  rw [hr]

@[simp] theorem endReservation_windows {f : Reservation → Bool} {st : Status} {body : List Byte} :
    ((endReservation l f st body s).lane m).windows = (s.lane m).windows := by
  obtain ⟨r, hr⟩ := endReservation_lane (s := s) (l := l) (m := m) (f := f) (st := st) (body := body)
  rw [hr]

theorem endEvent_state : ((endEvent l s).lane m).state = (s.lane m).state := (LaneUnit.fields_of_rest endEvent_rest).1

theorem ask_state {rd : Reader} {i : Indication} : ((ask l rd i s).lane m).state = (s.lane m).state :=
  (LaneUnit.fields_of_rest ask_rest).1

theorem askBoth_state {i : Indication} : ((askBoth l i s).lane m).state = (s.lane m).state :=
  (LaneUnit.fields_of_rest askBoth_rest).1

theorem offerPlaces_state : ((offerPlaces l s).lane m).state = (s.lane m).state := by
  obtain ⟨r, hr⟩ := offerPlaces_lane (s := s) (l := l) (m := m)
  rw [hr]

theorem backToReady_state : ((backToReady l s).lane l).state = .ready := by
  rw [backToReady, offerPlaces_state, askBoth_state, changeState_state]

end Sys2Proof.Machine
end

section
/-!
SUPPORT. Operations that leave every lane as it was, and those that leave its settings, its sensed position and its counters.
-/
namespace Sys2Proof.Machine

variable {s : State} {l m : Lane}

/-! ## Every lane as it was -/

@[simp] theorem handOver_lane {src : Source} {r : Record} : (handOver src r s).lane m = s.lane m := rfl

@[simp] theorem notify_lane {p : Port} {n : Notice} : (notify p n s).lane m = s.lane m := rfl

@[simp] theorem notifyAll_lane {n : Notice} : (notifyAll n s).lane m = s.lane m := rfl

@[simp] theorem reportLevel_lane {p : Port} {n : Notice} {v : Bool} : (reportLevel p n v s).lane m = s.lane m := rfl

@[simp] theorem report_lane {q : LaneReport} : (report l q s).lane m = s.lane m := rfl

@[simp] theorem indicate_lane {t : Tag} {i : Indication} : (indicate t i s).lane m = s.lane m := rfl

@[simp] theorem takeRequest_lane {p : Port} : (takeRequest p s).lane m = s.lane m := rfl

@[simp] theorem answer_lane {p : Port} {st : Status} {body : List Byte} : (answer p st body s).lane m = s.lane m := rfl

@[simp] theorem popSecond_lane : (popSecond s).lane m = s.lane m := rfl

@[simp] theorem claimSecond_lane {q : SecondOp} : (claimSecond q s).lane m = s.lane m := rfl

@[simp] theorem onEntry_lane {c : Cred} {f : Entry → Entry} : (onEntry c f s).lane m = s.lane m := rfl

@[simp] theorem escortRecord_lane {k : EscortCode} {x : Option Lane} {c : Option Cred} {d : Detail} : (escortRecord k x c d s).lane m = s.lane m := rfl

@[simp] theorem dropWait_lane {v : Cred} : (dropWait v s).lane m = s.lane m := rfl

@[simp] theorem dropCredit_lane {c : Cred} : (dropCredit c s).lane m = s.lane m := rfl

@[simp] theorem dispatchRecord_lane {k : DispatchCode} {t : Tag} {c : Option Cred} {d : Detail} : (dispatchRecord k t c d s).lane m = s.lane m := rfl

@[simp] theorem windowRecord_lane {w : Window} {o : WinOutcome} {b : Bool} : (windowRecord w o b s).lane m = s.lane m := rfl

@[simp] theorem handPassage_lane {w : Window} {r : PostingResult} : (handPassage w r s).lane m = s.lane m := rfl

@[simp] theorem verdictRecord_lane {d : Direction} {c : Cred} {v : Verdict} : (verdictRecord l d c v s).lane m = s.lane m := rfl

@[simp] theorem safetyEvent_lane {k : BankCode} {x : List Byte} : (safetyEvent k x s).lane m = s.lane m := rfl

@[simp] theorem lineRecord_lane {k : LaneCode} {x : Slot} {q : Marks} {more : List Byte} : (lineRecord l k x q more s).lane m = s.lane m := rfl

@[simp] theorem laneRecord_lane {k : LaneCode} {d : Detail} : (laneRecord l k d s).lane m = s.lane m := rfl

@[simp] theorem onSlot_lane {x : Slot} {f : SlotRec → SlotRec} : (onSlot l x f s).lane m = s.lane m := rfl

@[simp] theorem emit_lane {x : List LineMark} : (emit l x s).lane m = s.lane m := rfl

@[simp] theorem denyDesk_lane {p : Port} {d : DeskLookup} {e : Option Entry} {r : DenyReason} : (denyDesk p d e r s).lane m = s.lane m := rfl

@[simp] theorem takeWaitEnds_lane {v : Cred} : (takeWaitEnds v s).lane m = s.lane m := rfl

@[simp] theorem takeSense_lane {evs : List SenseEvent} {pos : LeafPosition} {z : Zones} : (takeSense l evs pos z s).lane m = s.lane m := rfl

@[simp] theorem portServed_lane {p : Port} : (portServed p s).lane m = s.lane m :=
  (portServed_keeps (b := .lane m) (by simp)).mpr rfl

@[simp] theorem setCalls_lane {q : List CallRec} : (setCalls q s).lane m = s.lane m :=
  (setCalls_keeps (b := .lane m) (by simp)).mpr rfl

@[simp] theorem endCall_lane {w : Window} : (endCall w s).lane m = s.lane m :=
  (endCall_keeps (b := .lane m) (by simp)).mpr rfl

@[simp] theorem postCall_lane {w : Window} : (postCall w s).lane m = s.lane m :=
  (postCall_keeps (b := .lane m) (by simp)).mpr rfl

@[simp] theorem reservedRecord_lane {d : DeskLookup} {st : Status} : (reservedRecord d st s).lane m = s.lane m :=
  (reservedRecord_keeps (b := .lane m) (by simp)).mpr rfl

@[simp] theorem setUncertain_lane {c : UncertainCause} : (setUncertain c s).lane m = s.lane m :=
  (setUncertain_keeps (b := .lane m) (by simp)).mpr rfl

@[simp] theorem becomeEgress_lane : (becomeEgress s).lane m = s.lane m :=
  (becomeEgress_keeps (b := .lane m) (by simp)).mpr rfl

@[simp] theorem testRestoreEnd_lane : (testRestoreEnd s).lane m = s.lane m :=
  (testRestoreEnd_keeps (b := .lane m) (by simp)).mpr rfl

@[simp] theorem endWaitByDesk_lane {p : Port} {e : Entry} {t : Tag} : (endWaitByDesk p e t s).lane m = s.lane m :=
  (endWaitByDesk_keeps (b := .lane m) (by simp)).mpr rfl

@[simp] theorem noAnswer_lane {x : Slot} : (noAnswer l x s).lane m = s.lane m :=
  (noAnswer_keeps (b := .lane m) (by simp)).mpr rfl

@[simp] theorem refuseSlot_lane {x : Slot} {why : RefusalReason} : (refuseSlot l x why s).lane m = s.lane m :=
  (refuseSlot_keeps (b := .lane m) (by simp)).mpr rfl

@[simp] theorem sendAgain_lane {r : LaneReport} : (sendAgain l r s).lane m = s.lane m :=
  (sendAgain_keeps (b := .lane m) (by simp)).mpr rfl

@[simp] theorem with_dispatch_lane {x : DispatchUnit} : State.lane { s with dispatch := x } m = s.lane m := rfl

@[simp] theorem with_escort_lane {x : EscortUnit} : State.lane { s with escort := x } m = s.lane m := rfl

@[simp] theorem with_bank_lane {x : BankUnit} : State.lane { s with bank := x } m = s.lane m := rfl

/-! ## The core of a lane -/

/-- What SET_LANE, the sense items, the counts and the active action write of a lane, and its other operations leave. -/
def LaneUnit.core (u : LaneUnit) : LaneSettings × LeafPosition × Zones × Counters × ActiveAction :=
  (u.settings, u.leafPos, u.zones, u.counters, u.action)

theorem LaneUnit.fields_of_core {u v : LaneUnit} (h : u.core = v.core) : u.settings = v.settings ∧ u.leafPos = v.leafPos
    ∧ u.zones = v.zones ∧ u.counters = v.counters ∧ u.action = v.action := by
  simpa [LaneUnit.core] using h

theorem core_of_rest {u v : LaneUnit} (h : u.rest = v.rest) : u.core = v.core :=
  congrArg LaneUnit.core (a₁ := u.rest) (a₂ := v.rest) h

theorem onLane_core {f : LaneUnit → LaneUnit} (hf : (f (s.lane l)).core = (s.lane l).core) :
    ((s.onLane l f).lane m).core = (s.lane m).core := by
  by_cases h : m = l
  · subst h
    rw [State.lane_onLane_self, hf]
  · rw [State.lane_onLane_ne _ _ h]

@[simp] theorem ask_core {rd : Reader} {i : Indication} : ((ask l rd i s).lane m).core = (s.lane m).core :=
  core_of_rest ask_rest

@[simp] theorem askBoth_core {i : Indication} : ((askBoth l i s).lane m).core = (s.lane m).core := core_of_rest askBoth_rest

@[simp] theorem askEscort_core {i : Indication} : ((askEscort l i s).lane m).core = (s.lane m).core :=
  core_of_rest askEscort_rest

@[simp] theorem showNow_core {rd : Reader} {i : Indication} : ((showNow l rd i s).lane m).core = (s.lane m).core :=
  core_of_rest showNow_rest

@[simp] theorem onDisplay_lane_core {rd : Reader} {f : Display → Display} :
    ((s.onLane l (fun u => u.onDisplay rd f)).lane m).core = (s.lane m).core := core_of_rest onDisplay_lane_rest

@[simp] theorem clearDisplay_core {rd : Reader} : ((clearDisplay l rd s).lane m).core = (s.lane m).core :=
  core_of_rest clearDisplay_rest

@[simp] theorem clearDisplays_core : ((clearDisplays l s).lane m).core = (s.lane m).core := core_of_rest clearDisplays_rest

@[simp] theorem onWindow_core {t : Tag} {f : Window → Window} : ((onWindow l t f s).lane m).core = (s.lane m).core :=
  core_of_rest onWindow_rest

@[simp] theorem openWindow_core {w : Window} : ((openWindow l w s).lane m).core = (s.lane m).core :=
  core_of_rest openWindow_rest

@[simp] theorem leaveAssigning_core {w : Window} : ((leaveAssigning l w s).lane m).core = (s.lane m).core :=
  core_of_rest leaveAssigning_rest

@[simp] theorem leaveAll_core {ws : List Window} : ((leaveAll l ws s).lane m).core = (s.lane m).core :=
  core_of_rest leaveAll_rest

@[simp] theorem retestPaced_core {ws : List Window} : ((retestPaced l ws s).lane m).core = (s.lane m).core :=
  core_of_rest retestPaced_rest

@[simp] theorem endEvent_core : ((endEvent l s).lane m).core = (s.lane m).core := core_of_rest endEvent_rest

@[simp] theorem endEvents_core {ls : List Lane} : ((endEvents ls s).lane m).core = (s.lane m).core :=
  core_of_rest endEvents_rest

@[simp] theorem settleOuter_core {ls : List Lane} : ((settleOuter ls s).lane m).core = (s.lane m).core :=
  core_of_rest settleOuter_rest

@[simp] theorem endWindow_core {w : Window} {o : WinOutcome} : ((endWindow l w o s).lane m).core = (s.lane m).core :=
  core_of_rest endWindow_rest

@[simp] theorem endWhere_core {f : Window → Bool} {o : WinOutcome} : ((endWhere l f o s).lane m).core = (s.lane m).core :=
  core_of_rest endWhere_rest

@[simp] theorem endAll_core {o : WinOutcome} : ((endAll l o s).lane m).core = (s.lane m).core := core_of_rest endAll_rest

@[simp] theorem endReservation_core {f : Reservation → Bool} {st : Status} {body : List Byte} :
    ((endReservation l f st body s).lane m).core = (s.lane m).core := by
  obtain ⟨r, hr⟩ := endReservation_lane (s := s) (l := l) (m := m) (f := f) (st := st) (body := body)
  rw [hr]
  rfl

@[simp] theorem offerPlaces_core : ((offerPlaces l s).lane m).core = (s.lane m).core := by
  obtain ⟨r, hr⟩ := offerPlaces_lane (s := s) (l := l) (m := m)
  rw [hr]
  rfl

@[simp] theorem changeState_core {new : LaneState} : ((changeState l new s).lane m).core = (s.lane m).core := by
  by_cases hm : m = l
  · subst hm
    by_cases h : (s.lane m).state = new
    · rw [changeState_of_eq h]
    · obtain ⟨r, hr⟩ := changeState_lane h
      rw [hr]
      rfl
  · rw [changeState_lane_ne hm]

@[simp] theorem backToReady_core : ((backToReady l s).lane m).core = (s.lane m).core := by simp [backToReady]

@[simp] theorem createWindow_core {e : Entry} {d : Direction} {o : Origin} {k : Bool} :
    ((createWindow l e d o k s).lane m).core = (s.lane m).core := by
  unfold createWindow
  dsimp only
  rw [ask_core, changeState_core, onEntry_lane, onLane_core rfl, postCall_lane]

/-! ## The escort unit at the lanes -/

@[simp] theorem settleLane_core : ((settleLane l s).lane m).core = (s.lane m).core := by simp [settleLane]

@[simp] theorem afterWait_core {ph : WaitPhase} : ((afterWait l ph s).lane m).core = (s.lane m).core := by
  unfold afterWait
  split <;> simp

@[simp] theorem expireWait_core {v sp : Cred} : ((expireWait v sp l s).lane m).core = (s.lane m).core := by
  simp [expireWait]

@[simp] theorem expireCredit_lane {c : Cred} : (expireCredit c l s).lane m = s.lane m := rfl

@[simp] theorem withdrawnByTable_core {v : Cred} : ((withdrawnByTable v l s).lane m).core = (s.lane m).core := by
  simp [withdrawnByTable]

@[simp] theorem timeoutWait_core {v : Cred} : ((timeoutWait v s).lane m).core = (s.lane m).core := by
  unfold timeoutWait
  split <;> simp

@[simp] theorem backToPending_core {v : Cred} : ((backToPending v s).lane m).core = (s.lane m).core := by
  unfold backToPending
  repeat' split
  all_goals simp

@[simp] theorem moveWait_core {v : Cred} : ((moveWait v l s).lane m).core = (s.lane m).core := by
  unfold moveWait
  split
  · dsimp only
    split <;> simp
  · rfl

@[simp] theorem endStale_core {v : Cred} : ((endStale v l s).lane m).core = (s.lane m).core := by
  unfold endStale
  dsimp only
  repeat' split
  all_goals simp

@[simp] theorem expireAll_core {xs : List EscortRec} : ((expireAll xs s).lane m).core = (s.lane m).core := by
  induction xs generalizing s with
  | nil => rfl
  | cons r rest ih =>
    cases r <;> simp only [expireAll, ih] <;> split <;> simp

@[simp] theorem settleWaitLanes_core {xs : List EscortRec} : ((settleWaitLanes xs s).lane m).core = (s.lane m).core := by
  induction xs generalizing s with
  | nil => rfl
  | cons r rest ih => cases r <;> rw [settleWaitLanes, ih] <;> simp

@[simp] theorem setEscort_core {p : Port} {n : Nat} : ((setEscort p n s).lane m).core = (s.lane m).core := by
  unfold setEscort
  split <;> simp

@[simp] theorem sponsorCredit_lane {c : Cred} : (sponsorCredit c l s).lane m = s.lane m :=
  (sponsorCredit_keeps (b := .lane m) (by simp)).mpr rfl

@[simp] theorem releaseWaits_core {c : Cred} {xs : List EscortRec} : ((releaseWaits c xs s).lane m).core = (s.lane m).core := by
  induction xs generalizing s with
  | nil => rfl
  | cons r rest ih =>
    unfold releaseWaits
    split
    · contradiction
    · simp_all only [List.cons.injEq]
      split <;> simp
    · simp_all only [List.cons.injEq]

@[simp] theorem sponsorPassage_core {x : HandedPassage} : ((sponsorPassage x s).lane m).core = (s.lane m).core := by
  unfold sponsorPassage
  split <;> simp

@[simp] theorem refuseWait_core {v : Cred} : ((refuseWait v l s).lane m).core = (s.lane m).core := by simp [refuseWait]

@[simp] theorem releaseInto_core {e : Entry} : ((releaseInto e l s).lane m).core = (s.lane m).core := by simp [releaseInto]

@[simp] theorem releaseAtTable_core {v : Cred} : ((releaseAtTable v l s).lane m).core = (s.lane m).core := by
  unfold releaseAtTable
  repeat' split
  all_goals simp

@[simp] theorem withdrawWait_core {v : Cred} : ((withdrawWait v s).lane m).core = (s.lane m).core := by
  unfold withdrawWait
  split <;> simp

@[simp] theorem removeCredit_lane {c : Cred} : (removeCredit c s).lane m = s.lane m :=
  (removeCredit_keeps (b := .lane m) (by simp)).mpr rfl

@[simp] theorem recordEnds_core {b : Bool} {xs : List EscortRec} : ((recordEnds b xs s).lane m).core = (s.lane m).core := by
  induction xs generalizing s with
  | nil => rfl
  | cons r rest ih =>
    cases r
    · rw [recordEnds, ih]
      split <;> simp
    · rw [recordEnds, ih]

@[simp] theorem clearList_core {b : Bool} : ((clearList b s).lane m).core = (s.lane m).core := by simp [clearList]

/-! ## The dispatch unit at the lanes -/

@[simp] theorem settleCall_core {w : Window} {c : CallState} {car : Option Nat} :
    ((settleCall l w c car s).lane m).core = (s.lane m).core := by simp [settleCall]

@[simp] theorem markTaken_core {xs : List CallRec} : ((markTaken xs s).lane m).core = (s.lane m).core := by
  induction xs generalizing s with
  | nil => rfl
  | cons r rest ih => cases r <;> rw [markTaken, ih] <;> simp

@[simp] theorem takeCalls_core {p : Port} : ((takeCalls p s).lane m).core = (s.lane m).core := by simp [takeCalls]

@[simp] theorem staleAnswer_lane {p : Port} {t : Tag} {x : List Byte} : (staleAnswer p t x s).lane m = s.lane m := rfl

@[simp] theorem assignCar_core {p : Port} {t : Tag} {x : Byte} : ((assignCar p t x s).lane m).core = (s.lane m).core := by
  unfold assignCar
  split <;> simp

@[simp] theorem declineCall_core {p : Port} {t : Tag} : ((declineCall p t s).lane m).core = (s.lane m).core := by
  unfold declineCall
  split <;> simp

@[simp] theorem timeoutCall_core {w : Window} : ((timeoutCall l w s).lane m).core = (s.lane m).core := by
  unfold timeoutCall
  split <;> simp [dropCall]

/-! ## The bank safety unit at the lanes -/

@[simp] theorem tellRestore_core {ls : List Lane} : ((tellRestore ls s).lane m).core = (s.lane m).core := by
  induction ls generalizing s with
  | nil => rfl
  | cons l r ih =>
    rw [tellRestore, ih]
    split
    · rw [endEvent_core, onLane_core rfl]
    · rfl

@[simp] theorem beginRestore_core : ((beginRestore s).lane m).core = (s.lane m).core := by
  unfold beginRestore
  dsimp only
  split <;> simp

@[simp] theorem egressCall_lane : (egressCall s).lane m = s.lane m := rfl

@[simp] theorem egressRelease_core : ((egressRelease s).lane m).core = (s.lane m).core := by
  unfold egressRelease
  repeat' split
  all_goals simp

@[simp] theorem takeWaitingRelease_core : ((takeWaitingRelease s).lane m).core = (s.lane m).core := by
  unfold takeWaitingRelease
  split <;> simp

@[simp] theorem testEgress_core : ((testEgress s).lane m).core = (s.lane m).core := by
  unfold testEgress
  split <;> simp

@[simp] theorem overtakeLane_core : ((overtakeLane l s).lane m).core = (s.lane m).core := by
  unfold overtakeLane
  repeat' split
  · simp
  · exact onLane_core rfl
  · rfl

@[simp] theorem restore_core {p : Port} : ((restore p s).lane m).core = (s.lane m).core := by
  unfold restore
  split <;> simp

/-! ## The lane requests and the modules -/

@[simp] theorem closeDirections_core {f : Direction → Bool} : ((closeDirections l f s).lane m).core = (s.lane m).core := by
  simp [closeDirections]

@[simp] theorem modeChanged_core {x y : Mode} : ((modeChanged l x y s).lane m).core = (s.lane m).core := by
  unfold modeChanged
  dsimp only
  split <;> simp

@[simp] theorem bankModeChanged_core {x y : Mode} {ls : List Lane} :
    ((bankModeChanged x y ls s).lane m).core = (s.lane m).core := by
  induction ls generalizing s with
  | nil => rfl
  | cons l r ih =>
    rw [bankModeChanged, ih]
    split <;> simp

@[simp] theorem maskLane_core : ((maskLane l s).lane m).core = (s.lane m).core := by simp [maskLane]

@[simp] theorem unmaskLane_core : ((unmaskLane l s).lane m).core = (s.lane m).core := by simp [unmaskLane]

@[simp] theorem applyMask_core {x y : LaneSet} {ls : List Lane} : ((applyMask x y ls s).lane m).core = (s.lane m).core := by
  induction ls generalizing s with
  | nil => rfl
  | cons l r ih =>
    rw [applyMask, ih]
    repeat' split
    all_goals simp

@[simp] theorem isolateLane_core {p : Port} : ((isolateLane p l s).lane m).core = (s.lane m).core := by
  unfold isolateLane
  split <;> simp

@[simp] theorem resumeLane_core {p : Port} : ((resumeLane p l s).lane m).core = (s.lane m).core := by
  unfold resumeLane
  split <;> simp

@[simp] theorem alarmReset_core {p : Port} : ((alarmReset p l s).lane m).core = (s.lane m).core := by
  unfold alarmReset
  dsimp only
  split
  · simp
  · split
    · simp
    · rw [endEvent_core]
      split
      · simp
      · rw [onLane_core rfl, answer_lane]

@[simp] theorem moduleAgreed_core : ((moduleAgreed l s).lane m).core = (s.lane m).core := by
  unfold moduleAgreed
  dsimp only
  repeat' split
  all_goals simp

@[simp] theorem leafLost_core : ((leafLost l s).lane m).core = (s.lane m).core := by
  unfold leafLost
  split <;> simp

@[simp] theorem moduleLost_core {x : Slot} : ((moduleLost l x s).lane m).core = (s.lane m).core := by
  cases x <;> simp [moduleLost, readerLost]

@[simp] theorem loseSlot_core {x : Slot} : ((loseSlot l x s).lane m).core = (s.lane m).core := by simp [loseSlot]

@[simp] theorem missPoll_core {x : Slot} : ((missPoll l x s).lane m).core = (s.lane m).core := by
  unfold missPoll
  repeat' split
  all_goals simp

@[simp] theorem unanswered_core {x : Slot} {k : SentKind} : ((unanswered l x k s).lane m).core = (s.lane m).core := by
  cases k <;> simp [unanswered]

@[simp] theorem agreeSlot_core {x : Slot} {q : Profile} {b : Bool} :
    ((agreeSlot l x q b s).lane m).core = (s.lane m).core := by simp [agreeSlot]

@[simp] theorem settleRound_core {x : Slot} {b : Bool} {q : Option Profile} :
    ((settleRound l x b q s).lane m).core = (s.lane m).core := by
  cases q <;> simp [settleRound]

@[simp] theorem inferSlot_core {x : Slot} : ((inferSlot l x s).lane m).core = (s.lane m).core := by simp [inferSlot]

@[simp] theorem settleServing_core : ((settleServing l s).lane m).core = (s.lane m).core := by
  unfold settleServing
  split <;> simp

@[simp] theorem removeWindow_core {w : Window} {r : PostingResult} :
    ((removeWindow l w r s).lane m).core = (s.lane m).core := by
  have hfilter : ∀ f : LaneUnit → List Window,
      ((s.onLane l (fun u => { u with windows := f u })).lane m).core = (s.lane m).core := fun _ => onLane_core rfl
  unfold removeWindow
  dsimp only
  rw [settleLane_core, settleServing_core]
  repeat' split
  all_goals simp [hfilter]

/-! ## Verdicts -/

@[simp] theorem verdictEffect_core {d : Direction} {v : Verdict} :
    ((verdictEffect l d v s).lane m).core = (s.lane m).core := by
  unfold verdictEffect
  split <;> simp

@[simp] theorem clearDecision_core : ((clearDecision l s).lane m).core = (s.lane m).core := onLane_core rfl

@[simp] theorem deskPassAt_core {p : Port} {c : Cred} {d : Direction} :
    ((deskPassAt p c l d s).lane m).core = (s.lane m).core := by
  unfold deskPassAt
  dsimp only
  repeat' split
  all_goals first | rfl | exact onLane_core rfl

@[simp] theorem afterDeskWait_core {w : Option EscortRec} : ((afterDeskWait w s).lane m).core = (s.lane m).core := by
  unfold afterDeskWait
  split <;> simp

@[simp] theorem deskRecord_lane {p : Port} {d : DeskLookup} {e : Option Entry} {t : Option Tag} {k : Bool}
    {r : Option DenyReason} : (deskRecord p d e t k r s).lane m = s.lane m := rfl

@[simp] theorem deskAtTable_core {p : Port} {d : DeskLookup} : ((deskAtTable p d s).lane m).core = (s.lane m).core := by
  unfold deskAtTable
  split <;> simp [grantDesk]

end Sys2Proof.Machine
end

section
/-!
PROOFS. Occupancy and the entry governor (R112 to R122): a passage counted, the requests at the occupancy unit, and the
handing on of a changed active action.
-/
namespace Sys2Proof.Machine

variable {s : State} {p : Port} {l : Lane}

/-! ## Handing on a changed active action -/

theorem handAction_same {old : ActiveAction} (h : s.occupancy.activeAction = old) : handAction old s = s := if_pos h

theorem handAction_changed {old : ActiveAction} (h : s.occupancy.activeAction ≠ old) : handAction old s
    = bankEvent .governor (governorItems s.occupancy old s.occupancy.activeAction)
      (s.onMail (fun m => { m with actions := m.actions ++ Lane.all.map (fun l => (l, s.occupancy.activeAction)) })) :=
  if_neg h

theorem handAction_same_block {old : ActiveAction} {b : Block} (hb : b ∉ [Block.actions, .records, .noticeMail]) :
    b.same s (handAction old s) := by
  simp only [List.mem_cons, List.not_mem_nil, or_false, not_or] at hb
  unfold handAction
  simp [hb]

theorem setOccupancy_same_block {o : OccupancyUnit} {b : Block}
    (hb : b ∉ [Block.occupancy, .actions, .records, .noticeMail]) : b.same s (setOccupancy o s) := by
  simp only [List.mem_cons, List.not_mem_nil, or_false, not_or] at hb
  unfold setOccupancy handAction
  simp [hb]

theorem setOccupancy_occupancy {o : OccupancyUnit} : (setOccupancy o s).occupancy = o :=
  handAction_same_block (b := .occupancy) (s := { s with occupancy := o }) (by simp)

theorem setOccupancy_records {o : OccupancyUnit} {r : Source × Record} (h : r ∈ s.mail.records) :
    r ∈ (setOccupancy o s).mail.records := by
  unfold setOccupancy
  by_cases hsame : o.activeAction = s.occupancy.activeAction
  · rw [handAction_same (s := { s with occupancy := o }) hsame]
    exact h
  · rw [handAction_changed (s := { s with occupancy := o }) hsame]
    exact List.mem_append_left _ h

theorem setOccupancy_actions {o : OccupancyUnit} :
    (o.activeAction ≠ s.occupancy.activeAction →
      (setOccupancy o s).mail.actions = s.mail.actions ++ Lane.all.map (fun l => (l, o.activeAction)))
    ∧ (o.activeAction = s.occupancy.activeAction → (setOccupancy o s).mail.actions = s.mail.actions) := by
  unfold setOccupancy
  refine ⟨fun h => ?_, fun h => ?_⟩
  · rw [handAction_changed (s := { s with occupancy := o }) h]
    rfl
  · rw [handAction_same (s := { s with occupancy := o }) h]

theorem governorItems_ne_nil {o : OccupancyUnit} {a a' : ActiveAction} : governorItems o a a' ≠ [] := nofun

/-- The occupancy unit takes another value, in a state that carries the mail and the clock of `s` but for records. -/
theorem setOccupancy_handedOn {o : OccupancyUnit} {t : State} (hoccupancy : t.occupancy = s.occupancy)
    (hactions : t.mail.actions = s.mail.actions) (hnotices : t.mail.notices = s.mail.notices) (hclock : t.clock = s.clock) :
    ActionHandedOn s (setOccupancy o t) := by
  refine ⟨fun h => ?_, fun h => ?_⟩
  · rw [setOccupancy_occupancy] at h ⊢
    have hstamp : t.stamp = s.stamp := by rw [State.stamp, State.stamp, hclock]
    rw [setOccupancy, hoccupancy, handAction_changed (s := { t with occupancy := o }) h, ← hactions, ← hnotices, ← hstamp]
    refine ⟨rfl, ?_, rfl⟩
    refine List.mem_append_right _ ?_
    simp only [governorItems_ne_nil, if_false, List.mem_singleton]
    rfl
  · rw [setOccupancy_occupancy] at h
    rw [setOccupancy, hoccupancy, handAction_same (s := { t with occupancy := o }) h]
    exact ⟨hactions, hnotices⟩

/-! ## A passage counted -/

theorem exec_occupancyPassage {x : CountedPassage} {before after : List CountedPassage} (h : s.resetHeld = false)
    (hm : s.mail.passages = before ++ x :: after) (hx : x.lane = l) (hbefore : ∀ y ∈ before, y.lane ≠ l) :
    exec (.occupancyPassage l) s
      = .next (countPassage x.cls x.dir (s.onMail (fun m => { m with passages := before ++ after }))) := by
  refine (running_of_not_resetHeld h _).trans ?_
  rw [hm, takeFirst_split (p := fun y => y.lane == l) (beq_iff_eq.mpr hx) fun y hy =>
    beq_eq_false_iff_ne.mpr (hbefore y hy)]

theorem exec_occupancyPassage_none (h : s.resetHeld = false) (hm : ∀ y ∈ s.mail.passages, y.lane ≠ l) :
    exec (.occupancyPassage l) s = .next s := by
  refine (running_of_not_resetHeld h _).trans ?_
  rw [takeFirst_none (p := fun y => y.lane == l) fun y hy => beq_eq_false_iff_ne.mpr (hm y hy)]

@[simp] theorem HeadCounts.of_put_self {c : HeadCounts} {k : Class} {n : Nat} : (c.put k n).of k = n := by cases k <;> rfl

theorem HeadCounts.of_put_ne {c : HeadCounts} {j k : Class} {n : Nat} (h : j ≠ k) : (c.put k n).of j = c.of j := by
  cases j <;> cases k <;> first | rfl | exact absurd rfl h

theorem HeadCounts.put_ne {c : HeadCounts} {k : Class} {n : Nat} (h : n ≠ c.of k) : c.put k n ≠ c := by
  intro heq
  have hof : (c.put k n).of k = c.of k := congrArg (fun x => HeadCounts.of x k) heq
  exact h (of_put_self.symm.trans hof)

/-- A group's evaluation as the two comparisons of R118. -/
theorem Group.evaluate_active {c : HeadCounts} {g : Group} : (g.evaluate c).active = true ↔
    g.enabled = true ∧ (g.high ≤ c.source g.source ∨ g.low < c.source g.source ∧ g.active = true) := by
  simp only [Group.evaluate, Bool.and_eq_true]
  refine and_congr_right fun _ => ?_
  split
  · simp [*]
  · rename_i hlow
    split
    · exact iff_of_false Bool.false_ne_true fun h => h.elim hlow fun k => absurd k.1 (by omega)
    · exact ⟨fun h => .inr ⟨by omega, h⟩, fun h => h.elim (absurd · hlow) And.right⟩

theorem evaluateFor_get {k : Class} {c : HeadCounts} {g : Groups} {n : Nat} : (evaluateFor k c g).get n
    = if (g.get n).source = .total ∨ (g.get n).source = Class.source k then (g.get n).evaluate c else g.get n :=
  Groups.get_map ..

/-- What R112 and R118 make of the unit when a passage of class `k` is counted, or finds its count at a bound. -/
def CountedTo (k : Class) (s u : State) : Prop :=
  (∀ j, j ≠ k → u.occupancy.counts.of j = s.occupancy.counts.of j)
  ∧ (∀ n, ((u.occupancy.groups.get n).active = true ↔
      if u.occupancy.counts ≠ s.occupancy.counts
          ∧ ((s.occupancy.groups.get n).source = .total ∨ (s.occupancy.groups.get n).source = Class.source k) then
        (s.occupancy.groups.get n).enabled = true
          ∧ ((s.occupancy.groups.get n).high ≤ u.occupancy.counts.source (s.occupancy.groups.get n).source
            ∨ (s.occupancy.groups.get n).low < u.occupancy.counts.source (s.occupancy.groups.get n).source
              ∧ (s.occupancy.groups.get n).active = true)
      else (s.occupancy.groups.get n).active = true))
  ∧ (u.occupancy.activeAction ≠ s.occupancy.activeAction →
      u.mail.actions = s.mail.actions ++ Lane.all.map (fun m => (m, u.occupancy.activeAction)))
  ∧ (u.occupancy.activeAction = s.occupancy.activeAction → u.mail.actions = s.mail.actions)

theorem changeCount_countedTo {k : Class} {n : Nat} (hn : n ≠ s.occupancy.counts.of k) :
    CountedTo k s (changeCount k n s) := by
  unfold CountedTo changeCount
  rw [setOccupancy_occupancy]
  refine ⟨fun j hj => HeadCounts.of_put_ne hj, fun m => ?_, setOccupancy_actions.1, setOccupancy_actions.2⟩
  simp only [evaluateFor_get, ne_eq, HeadCounts.put_ne hn, not_false_eq_true, true_and]
  split
  · exact Group.evaluate_active
  · rfl

theorem setUncertain_occupancy {c : UncertainCause} :
    (setUncertain c s).occupancy = { s.occupancy with uncertain := true } := by
  unfold setUncertain
  split
  · rename_i h
    rw [← h]
  · rfl

theorem setUncertain_actions {c : UncertainCause} : (setUncertain c s).mail.actions = s.mail.actions := by
  unfold setUncertain
  split <;> rfl

theorem setUncertain_countedTo {k : Class} {c : UncertainCause} : CountedTo k s (setUncertain c s) := by
  unfold CountedTo
  rw [setUncertain_occupancy, setUncertain_actions]
  exact ⟨fun _ _ => rfl, fun n => by simp, fun h => absurd rfl h, fun _ => rfl⟩

theorem countPassage_countedTo {k : Class} {d : Direction} : CountedTo k s (countPassage k d s) := by
  cases d with
  | entry =>
    simp only [countPassage]
    split
    · exact changeCount_countedTo (by omega)
    · exact setUncertain_countedTo
  | exit =>
    simp only [countPassage]
    split
    · exact changeCount_countedTo (by omega)
    · exact setUncertain_countedTo

theorem countPassage_passages {k : Class} {d : Direction} : (countPassage k d s).mail.passages = s.mail.passages :=
  (countPassage_keeps (b := .passages) (by simp)).mpr rfl

/-- Settles O25: a passage of its lane is taken; its count moves by one, or stands at a bound. -/
theorem passageCounted : Obligations.PassageCounted := by
  intro l s h
  refine ⟨exec_occupancyPassage_none h, fun x before after hm hx hbefore => ?_⟩
  let u := s.onMail (fun m => { m with passages := before ++ after })
  obtain ⟨hclasses, hgroups, hchanged, hsame⟩ : CountedTo x.cls u (countPassage x.cls x.dir u) := countPassage_countedTo
  refine ⟨_, exec_occupancyPassage h hm hx hbefore, countPassage_passages, fun hd hlt => ?_, fun hd hlt => ?_,
    fun hbound => ?_, hclasses, hgroups, hchanged, hsame⟩
  · rw [hd, countPassage, if_pos (show u.occupancy.counts.of x.cls < Config.countMax from hlt), changeCount,
      setOccupancy_occupancy]
    exact ⟨HeadCounts.of_put_self, rfl⟩
  · rw [hd, countPassage, if_pos (show u.occupancy.counts.of x.cls > 0 from hlt), changeCount, setOccupancy_occupancy]
    exact ⟨HeadCounts.of_put_self, rfl⟩
  · rcases hbound with ⟨hd, hge⟩ | ⟨hd, hzero⟩
    · have hno : ¬ u.occupancy.counts.of x.cls < Config.countMax := Nat.not_lt.mpr hge
      rw [hd, countPassage, if_neg hno, setUncertain_occupancy]
      rfl
    · have hno : ¬ u.occupancy.counts.of x.cls > 0 := by
        change ¬ s.occupancy.counts.of x.cls > 0
        omega
      rw [hd, countPassage, if_neg hno, setUncertain_occupancy]
      rfl

/-! ## The requests at the occupancy unit -/

theorem exec_setCounts {a b c : Nat} (h : Asked p (.setCounts a b c) s) : exec (.setCounts p) s = .next
    (if a > Config.countMax ∨ b > Config.countMax ∨ c > Config.countMax then answer p .badField [] (taken p s)
      else answer p .ok [] (applyCounts ⟨a, b, c⟩ (taken p s))) := by
  refine (running_of_not_resetHeld h.1 _).trans ?_
  simp only [h.2, takenByBlock, taken]

theorem exec_setGovernor {g : Byte} {c : GroupChange} {nominal : Option Nat} (h : Asked p (.setGovernor g c nominal) s) :
    exec (.setGovernor p) s = .next (setGovernor p g c nominal (taken p s)) := by
  refine (running_of_not_resetHeld h.1 _).trans ?_
  simp only [h.2, takenByBlock, taken]

theorem exec_governorStatus (h : Asked p .governorStatus s) :
    exec (.governorStatus p) s = .next (answer p .ok (governorBody s.occupancy) (taken p s)) := by
  refine (running_of_not_resetHeld h.1 _).trans ?_
  simp only [h.2, takenByBlock, taken, takeRequest_occupancy]

/-- With no field given a group is written back as it was (R121). -/
theorem writtenGroup_of_not_any {g x : Group} {c : GroupChange} (hany : c.any = false) (hx : writtenGroup g c = some x) :
    x = g := by
  simp only [GroupChange.any, Bool.or_eq_false_iff, Option.isSome_eq_false_iff, Option.isNone_iff_eq_none] at hany
  obtain ⟨⟨⟨⟨⟨⟨⟨h1, h2⟩, h3⟩, h4⟩, h5⟩, h6⟩, h7⟩, h8⟩ := hany
  simp only [writtenGroup, h1, h2, h3, h4, h5, h6, h7, h8, newField, Option.bind_some, Option.getD_none] at hx
  split at hx
  · exact (Option.some.inj hx).symm
  · exact absurd hx (by simp)

/-- A group written has its thresholds in order, and bars some class if it bars (R116, R121). -/
theorem writtenGroup_fits {g x : Group} {c : GroupChange} (hx : writtenGroup g c = some x) :
    x.low < x.high ∧ (x.action = .bar → x.barred ≠ 0) := by
  simp only [writtenGroup, Option.bind_eq_some_iff] at hx
  obtain ⟨_, _, _, _, _, _, _, _, _, _, _, _, hx⟩ := hx
  split at hx
  · rename_i hfits
    rw [← Option.some.inj hx]
    simpa [Decidable.imp_iff_not_or] using hfits
  · exact absurd hx (by simp)

theorem Groups.get_set_self {g : Groups} {n : Nat} {x : Group} (h : n ≤ 3) : (g.set n x).get n = x := by
  match n, h with
  | 0, _ | 1, _ | 2, _ | 3, _ => rfl

theorem Groups.set_get {g : Groups} {n : Nat} : g.set n (g.get n) = g := by
  match n with
  | 0 | 1 | 2 | _ + 3 => rfl

section SetGovernor

variable {g : Byte} {c : GroupChange} {nominal : Option Nat} {x : Group}

theorem setGovernor_refused (h : nominalFits nominal = false ∨ (g = 0xFF ∧ c.any = true) ∨ (g ≠ 0xFF ∧ 3 < g.toNat)
    ∨ (g.toNat ≤ 3 ∧ writtenGroup (s.occupancy.groups.get g.toNat) c = none)) :
    setGovernor p g c nominal s = answer p .badField [] s := by
  unfold setGovernor
  dsimp only
  split
  · rfl
  · rename_i hfits
    rcases h with h | ⟨hg, hany⟩ | ⟨hg, hlarge⟩ | ⟨hsmall, hnone⟩
    · exact absurd (by rw [h]; rfl) hfits
    · rw [if_pos hg, if_pos hany]
    · rw [if_neg hg, if_pos hlarge]
    · have hg : g ≠ 0xFF := by
        rintro rfl
        exact absurd hsmall (by decide)
      rw [if_neg hg, if_neg (by omega), hnone]

theorem setGovernor_nominal (hfits : nominalFits nominal = true) (hg : g = 0xFF) (hany : c.any = false) :
    setGovernor p g c nominal s
      = (fun u => answer p .ok [groupByte u.occupancy.activeAction.group] u)
        (setOccupancy { s.occupancy with nominal := nominal.getD s.occupancy.nominal } s) := by
  simp only [setGovernor, hfits, hg, hany]
  rfl

theorem setGovernor_group (hfits : nominalFits nominal = true) (hsmall : g.toNat ≤ 3)
    (hx : writtenGroup (s.occupancy.groups.get g.toNat) c = some x) :
    setGovernor p g c nominal s
      = (fun u => answer p .ok [activeByte (if c.any then x.evaluate s.occupancy.counts else x).active,
          groupByte u.occupancy.activeAction.group] u)
        (setOccupancy { s.occupancy with
          nominal := nominal.getD s.occupancy.nominal
          groups := s.occupancy.groups.set g.toNat (if c.any then x.evaluate s.occupancy.counts else x) } s) := by
  have hg : g ≠ 0xFF := by
    rintro rfl
    exact absurd hsmall (by decide)
  simp only [setGovernor, hfits, Bool.not_true, if_neg hg, if_neg (show ¬ g.toNat > 3 by omega), hx]
  rfl

end SetGovernor

theorem ActionHandedOn.answered {u : State} {st : Status} {body : List Byte} (h : ActionHandedOn s u) :
    ActionHandedOn s (answer p st body u) := h

/-! ## A lane takes the active action -/

theorem exec_activeActionUpdate {a : ActiveAction} {before after : List (Lane × ActiveAction)} (h : s.resetHeld = false)
    (hm : s.mail.actions = before ++ (l, a) :: after) (hbefore : ∀ y ∈ before, y.1 ≠ l) :
    exec (.activeActionUpdate l) s = .next ((fun t => endEvent l (retestPaced l (t.lane l).windows t))
      ((s.onMail (fun m => { m with actions := before ++ after })).onLane l (fun u => { u with action := a }))) := by
  refine (running_of_not_resetHeld h _).trans ?_
  rw [hm, takeFirst_split (p := fun y : Lane × ActiveAction => y.1 == l) (beq_self_eq_true l) fun y hy =>
    beq_eq_false_iff_ne.mpr (hbefore y hy)]

theorem paceHolds_of_none {d : Direction} (h : (s.lane l).action = .none) : paceHolds s l d = false := by
  cases d <;> simp [paceHolds, h]

theorem retestPaced_singleton {w : Window} (hw : w.state = .paced) (hpace : paceHolds s l w.dir = false) :
    retestPaced l [w] s = openWindow l w s := by
  rw [retestPaced, if_pos ⟨hw, hpace⟩]
  rfl

/-- Settles O26: the requests by their values; the counts and the groups written are handed on by `setOccupancy`; a lane
that takes no active action opens its PACED window. -/
theorem governorRequests : Obligations.GovernorRequests := by
  intro p s
  refine ⟨fun a b c h => ⟨fun hbig => ?_, fun ha hb hc => ?_⟩, fun g c nominal h => ?_, exec_governorStatus,
    fun l a before after h hm hbefore => ?_⟩
  · rw [exec_setCounts h, if_pos (show a > Config.countMax ∨ b > Config.countMax ∨ c > Config.countMax from hbig)]
  · have hfit : ¬ (a > Config.countMax ∨ b > Config.countMax ∨ c > Config.countMax) := by
      rw [Config.countMax]
      omega
    refine ⟨_, exec_setCounts h, ?_⟩
    rw [if_neg hfit]
    refine ⟨setOccupancy_occupancy, answer_reply, ?_, ActionHandedOn.answered ?_⟩
    · exact setOccupancy_records (List.mem_append_right _ (List.mem_singleton_self _))
    · exact setOccupancy_handedOn rfl rfl rfl rfl
  · refine ⟨_, exec_setGovernor h, fun hrefused => setGovernor_refused hrefused, fun hfits hg hany => ?_,
      fun x hfits hsmall hx => ?_⟩
    · rw [setGovernor_nominal hfits hg hany]
      exact ⟨setOccupancy_occupancy, answer_reply, ActionHandedOn.answered (setOccupancy_handedOn rfl rfl rfl rfl)⟩
    · rw [setGovernor_group (s := taken p s) hfits hsmall hx]
      obtain ⟨horder, hbars⟩ := writtenGroup_fits hx
      refine ⟨horder, hbars, ?_⟩
      change (setOccupancy _ (taken p s)).occupancy.nominal = _ ∧ (setOccupancy _ (taken p s)).occupancy.counts = _
        ∧ (_ → (setOccupancy _ (taken p s)).occupancy.groups = _) ∧ (_ → (setOccupancy _ (taken p s)).occupancy.groups = _)
        ∧ _ = some (replyBytes .ok [if ((setOccupancy _ (taken p s)).occupancy.groups.get g.toNat).active then 0 else 1,
          groupByte (setOccupancy _ (taken p s)).occupancy.activeAction.group]) ∧ _
      refine ⟨by rw [setOccupancy_occupancy]; rfl, by rw [setOccupancy_occupancy]; rfl, fun hany => ?_, fun hany => ?_, ?_,
        ActionHandedOn.answered (setOccupancy_handedOn rfl rfl rfl rfl)⟩
      · rw [setOccupancy_occupancy, if_pos hany]
        rfl
      · rw [setOccupancy_occupancy, if_neg (by simp [hany]), writtenGroup_of_not_any hany hx]
        exact Groups.set_get
      · rw [setOccupancy_occupancy, Groups.get_set_self hsmall]
        exact answer_reply.trans (by rw [setOccupancy_occupancy]; rfl)
  · have haction {u : LaneUnit} (k : u.core = ({ s.lane l with action := a } : LaneUnit).core) : u.action = a :=
      (LaneUnit.fields_of_core k).2.2.2.2
    let t := (s.onMail (fun m => { m with actions := before ++ after })).onLane l (fun u => { u with action := a })
    have hlane : t.lane l = { s.lane l with action := a } := State.lane_onLane_self ..
    refine ⟨_, exec_activeActionUpdate h hm hbefore, haction ?_, ?_, fun w ha hw hpaced => ?_⟩
    · change (LaneUnit.core ((endEvent l (retestPaced l (t.lane l).windows t)).lane l)) = _
      rw [endEvent_core, retestPaced_core, hlane]
    · change (endEvent l (retestPaced l (t.lane l).windows t)).mail.actions = t.mail.actions
      exact (endEvent_keeps (b := .actions) (by simp)).mpr ((retestPaced_keeps (b := .actions) (by simp)).mpr rfl)
    · have hpace : paceHolds t l w.dir = false := paceHolds_of_none (by rw [hlane]; exact ha)
      have hwindows : (t.lane l).windows = [w] := by rw [hlane]; exact hw
      have hopened : ((openWindow l w t).lane l).windows = [w.opening (t.after ((t.lane l).settings.openTime * 1000))] := by
        rw [openWindow_windows, hwindows]
        simp [mapWindow]
      have hgone := endEvent_goneOn (s := openWindow l w t) (l := l) (m := l)
      rw [hopened] at hgone
      change ∃ v, ((endEvent l (retestPaced l (t.lane l).windows t)).lane l).windows = [v] ∧ _
      rw [hwindows, retestPaced_singleton hpaced hpace]
      exact ⟨_, hgone.singleton (by simp [Window.opening]), rfl, rfl⟩

end Sys2Proof.Machine
end

section
/-!
PROOFS. Every step keeps the bounds of the counts and the counters (R76, R111, R119, R165).
-/
namespace Sys2Proof.Machine

variable {s t u : State} {l m : Lane} {p : Port}

/-! ## The lanes' counters -/

/-- Every lane's counters are within their bounds (R76). -/
def LanesFit (s : State) : Prop := ∀ m, (s.lane m).counters.fit

theorem LanesFit.of_core (h : LanesFit s) (k : ∀ m, (t.lane m).core = (s.lane m).core) : LanesFit t := fun m => by
  rw [(LaneUnit.fields_of_core (k m)).2.2.2.1]
  exact h m

theorem LanesFit.of_lane (h : LanesFit s) (k : ∀ m, t.lane m = s.lane m) : LanesFit t :=
  h.of_core fun m => by rw [k m]

theorem LanesFit.onLane {f : LaneUnit → LaneUnit} (h : LanesFit s) (hf : (f (s.lane l)).counters.fit) :
    LanesFit (s.onLane l f) := by
  intro m
  by_cases hm : m = l
  · subst hm
    rwa [State.lane_onLane_self]
  · rw [State.lane_onLane_ne _ _ hm]
    exact h m

theorem endEvent_fit (h : LanesFit s) : LanesFit (endEvent l s) := h.of_core fun _ => endEvent_core

theorem settleLane_fit (h : LanesFit s) : LanesFit (settleLane l s) := h.of_core fun _ => settleLane_core

theorem unanswered_fit {x : Slot} {k : SentKind} (h : LanesFit s) : LanesFit (unanswered l x k s) :=
  h.of_core fun _ => unanswered_core

theorem Counters.fit_reset : Counters.reset.fit := by simp [Counters.fit, Counters.reset]

theorem Counters.fit.alarm {c : Counters} (h : c.fit) (r : AlarmReason) : (c.alarm r).fit := by
  obtain ⟨hdenial, htailgate, hintrusion, hloiter, hobstruct, hline⟩ := h
  cases r
  · exact ⟨hdenial, saturate_le _, hintrusion, hloiter, hobstruct, hline⟩
  · exact ⟨hdenial, htailgate, saturate_le _, hloiter, hobstruct, hline⟩
  · exact ⟨hdenial, htailgate, hintrusion, saturate_le _, hobstruct, hline⟩
  · exact ⟨hdenial, htailgate, hintrusion, hloiter, saturate_le _, hline⟩

theorem LaneUnit.count_fit {u : LaneUnit} {f : Counters → Counters} (h : u.counters.fit)
    (hf : ∀ c, c.fit → (f c).fit) : (u.count f).counters.fit := by
  unfold LaneUnit.count
  dsimp only
  split
  · exact h
  · exact hf _ h

theorem countDenial_fit (h : LanesFit s) : LanesFit (countDenial l s) :=
  h.onLane (LaneUnit.count_fit (h l) fun _ hc => by
    obtain ⟨-, hrest⟩ := hc
    exact ⟨saturate_le _, hrest⟩)

theorem countLineError_fit (h : LanesFit s) : LanesFit (countLineError l s) :=
  h.onLane (LaneUnit.count_fit (h l) fun _ hc => by
    obtain ⟨hdenial, htailgate, hintrusion, hloiter, hobstruct, -⟩ := hc
    exact ⟨hdenial, htailgate, hintrusion, hloiter, hobstruct, saturate_le _⟩)

theorem raiseAlarm_fit {r : AlarmReason} (h : LanesFit s) : LanesFit (raiseAlarm l r s) := by
  have hchanged : LanesFit (changeState l .alarm (endWhere l (fun w => w.state.beforeTransit) .withdrawn s)) :=
    h.of_core fun m => by simp
  exact (hchanged.onLane ((hchanged l).alarm r)).of_core fun m => by
    unfold raiseAlarm
    dsimp only
    rw [notifyAll_lane, handOver_lane, askBoth_core]

theorem giveVerdict_fit {d : Direction} {c : Cred} {v : Verdict} (h : LanesFit s) : LanesFit (giveVerdict l d c v s) := by
  have heffect : LanesFit (verdictEffect l d v (verdictRecord l d c v s)) := h.of_core fun m => by simp
  have hcounted : LanesFit (if v.denies then countDenial l (verdictEffect l d v (verdictRecord l d c v s))
      else verdictEffect l d v (verdictRecord l d c v s)) := by
    split
    · exact countDenial_fit heffect
    · exact heffect
  unfold giveVerdict
  dsimp only
  split
  · exact hcounted.of_core fun m => by simp
  · exact hcounted

theorem startDecision_fit {x : Presentation} (h : LanesFit s) : LanesFit (startDecision l x s) := by
  unfold startDecision
  repeat' split
  · exact countLineError_fit h
  · exact endEvent_fit (giveVerdict_fit h)
  · exact endEvent_fit (giveVerdict_fit h)
  · have hdeciding : LanesFit (s.onLane l (fun u => { u with decision := some x })) := h.onLane (h l)
    exact hdeciding.of_lane fun m => rfl

theorem lookupAtTable_fit {x : Presentation} (h : LanesFit s) : LanesFit (lookupAtTable l x s) := by
  have hcleared : LanesFit (clearDecision l s) := h.of_core fun m => by simp
  unfold lookupAtTable
  dsimp only
  split
  · exact endEvent_fit (giveVerdict_fit hcleared)
  · exact settleLane_fit (giveVerdict_fit hcleared)

theorem takePresentation_fit {x : Slot} {c : Cred} {q : Medium} (h : LanesFit s) :
    LanesFit (takePresentation l x c q s) := by
  unfold takePresentation
  repeat' split
  · exact countLineError_fit h
  · have hasked : LanesFit (ask l (slotDirection x).reader .stop s) := h.of_core fun m => by simp
    exact endEvent_fit (countDenial_fit hasked)
  · exact startDecision_fit h

theorem takePolled_fit {x : Slot} {g : GoodReply} (h : LanesFit s) : LanesFit (takePolled l x g s) := by
  unfold takePolled
  split
  · exact takePresentation_fit h
  · exact h.of_lane fun m => by simp
  · exact h

theorem takeGood_fit {a : Await} {g : GoodReply} (h : LanesFit s) : LanesFit (takeGood l a g s) := by
  have hinferred : LanesFit (inferSlot l a.slot s) := h.of_core fun m => by simp
  unfold takeGood
  dsimp only
  repeat' split
  · exact h.of_core fun m => by simp
  · exact h.of_core fun m => by simp
  · exact h
  · exact takePolled_fit (h.of_lane fun m => rfl)
  · exact takePolled_fit hinferred
  · exact hinferred

theorem unlessVoid_fit {a : Await} {f : State → State} (h : LanesFit s) (hf : LanesFit (f s)) :
    LanesFit (a.unlessVoid f s) := by
  unfold Await.unlessVoid
  split
  · exact h
  · exact hf

theorem takeBad_fit {a : Await} {rate : Bool} (h : LanesFit s) : LanesFit (takeBad l a rate s) := by
  unfold takeBad
  split
  · exact unlessVoid_fit h (h.of_lane fun m => by simp)
  · exact unlessVoid_fit (countLineError_fit h) (unanswered_fit (countLineError_fit h))

theorem jabberSlot_fit {x : Slot} (h : LanesFit s) : LanesFit (jabberSlot l x s) := by
  have hcounted : LanesFit (countLineError l (onSlot l x (fun _ =>
      { SlotRec.reset with status := .jabber, round := false, lockout := oneSecond s }) s)) :=
    countLineError_fit (h.of_lane fun m => rfl)
  unfold jabberSlot
  dsimp only
  split
  · exact hcounted.of_core fun m => by simp
  · exact hcounted.of_lane fun m => by simp

theorem sendCommand_fit {coll : Collisions} (h : LanesFit s) : LanesFit (sendCommand l coll s) := by
  unfold sendCommand
  repeat' split
  · exact h
  · exact countLineError_fit h
  · exact h.of_lane fun m => rfl
  · exact h

theorem sendShow_fit {rd : Reader} {n : Nat} {coll : Collisions} (h : LanesFit s) : LanesFit (sendShow l rd n coll s) := by
  unfold sendShow
  repeat' split
  · exact h
  · exact countLineError_fit h
  · exact h.of_lane fun m => rfl
  · exact h

theorem runSlots_fit {coll : Collisions} {xs : List Slot} (h : LanesFit s) : LanesFit (runSlots l coll xs s) := by
  induction xs generalizing s with
  | nil => exact h
  | cons x rest ih =>
    unfold runSlots
    dsimp only
    split
    · exact ih h
    · rename_i k _
      have hsent : LanesFit (onSlot l x (fun r => r.sending k) s) := h.of_lane fun m => rfl
      split
      · exact ih (unanswered_fit (countLineError_fit hsent))
      · exact hsent.of_lane fun m => rfl

theorem startCycle_fit {coll : Collisions} (h : LanesFit s) : LanesFit (startCycle l coll s) :=
  runSlots_fit (sendShow_fit (sendShow_fit (sendCommand_fit (h.of_lane fun _ => rfl))))

theorem afterAwait_fit {coll : Collisions} {a : Await} {f : State → State} (h : LanesFit s)
    (hf : ∀ t, LanesFit t → LanesFit (f t)) : LanesFit (afterAwait l coll a f s) :=
  runSlots_fit (hf _ (h.of_lane fun _ => rfl))

theorem goodReply_fit {r : RawReply} {coll : Collisions} {kind : GoodReply → Bool} (h : LanesFit s) :
    LanesFit (goodReply l r coll kind s) := by
  unfold goodReply
  repeat' split
  · exact afterAwait_fit h fun t ht => unlessVoid_fit ht (takeGood_fit ht)
  all_goals exact h

theorem senseStep_fit {α : Type} {read : SenseItem → Option α} {f : α → State → State} (h : LanesFit s)
    (hf : ∀ a t, LanesFit t → LanesFit (f a t)) : LanesFit (senseStep l read f s) := by
  unfold senseStep
  dsimp only
  repeat' split
  · exact h
  · exact endEvent_fit (hf _ _ h)
  all_goals exact h

theorem attributed_fit {f : State → State} (h : LanesFit s) (hf : LanesFit (f s)) : LanesFit (attributed l f s) := by
  unfold attributed
  split
  · exact hf
  · exact h

theorem crossIn_fit {d : Direction} (h : LanesFit s) : LanesFit (crossIn l d s) := by
  unfold crossIn
  dsimp only
  split
  · exact h.of_core fun m => by simp
  · exact raiseAlarm_fit h

theorem pairSeen_fit {d : Direction} (h : LanesFit s) : LanesFit (pairSeen l d s) := by
  unfold pairSeen
  split
  · exact h
  · exact raiseAlarm_fit h

theorem crossLeaf_fit {d : Direction} (h : LanesFit s) : LanesFit (crossLeaf l d s) := by
  unfold crossLeaf
  split
  · exact h.of_core fun m => by simp
  · exact h

theorem crossOut_fit {side : SenseSide} (h : LanesFit s) : LanesFit (crossOut l side s) := by
  unfold crossOut
  split
  · exact h.of_core fun m => by simp
  · exact h.of_lane fun m => rfl

theorem retreat_fit {d : Direction} (h : LanesFit s) : LanesFit (retreat l d s) := by
  unfold retreat
  repeat' split
  · exact h.of_core fun m => by simp
  · exact h.of_core fun m => by simp
  · exact h.of_core fun m => by simp
  · exact h.of_lane fun m => rfl

theorem setLane_fit {c : LaneChange} (h : LanesFit s) : LanesFit (setLane p l c s) := by
  unfold setLane
  split
  · exact h.of_lane fun m => rfl
  · rename_i x _
    have hset : LanesFit ((answer p .ok [] s).onLane l (fun u => { u with settings := x })) :=
      LanesFit.onLane (s := answer p .ok [] s) (h.of_lane fun m => rfl) (h l)
    unfold applySettings
    dsimp only
    refine LanesFit.of_core hset fun m => ?_
    rw [endEvent_core]
    split <;> simp

theorem restartLane_fit (h : LanesFit s) : LanesFit (restartLane p l s) := by
  unfold restartLane
  split
  · exact h.of_lane fun m => rfl
  · have hchanged : LanesFit (changeState l .enumerating (endAll l .aborted (answer p .ok [] s))) :=
      h.of_core fun m => by simp
    exact (hchanged.onLane (f := fun u => { u with zones := ⟨false, false, false⟩, obstruction := false, obstructDue := none })
      (hchanged l)).of_core fun m => by simp

theorem atLane_fit {x : Byte} {f : Lane → State → State} (h : LanesFit s) (hf : ∀ l t, LanesFit t → LanesFit (f l t)) :
    LanesFit (atLane p x f s) := by
  have htaken : LanesFit (takeRequest p s) := h.of_lane fun _ => rfl
  unfold atLane takenByBlock
  split
  · exact hf _ _ htaken
  · exact htaken.of_lane fun m => rfl

theorem readCounters_fit (h : LanesFit s) : LanesFit (readCounters p l s) :=
  LanesFit.onLane (s := answer p .ok (countersBody (s.lane l).counters) s) (h.of_lane fun _ => rfl) Counters.fit_reset

theorem enterReset_fit : LanesFit (enterReset s) := fun m => by
  rw [enterReset_lane]
  exact Counters.fit_reset

theorem leaveReset_fit {straps : BitVec 5} (h : LanesFit s) : LanesFit (leaveReset straps s) := by
  refine h.of_core fun m => ?_
  rw [leaveReset_eq]
  have hcompared : (compareInput (resumeSafety (readied straps s))).lane m = (resumeSafety (readied straps s)).lane m := rfl
  have hreadied : (readied straps s).lane m = s.lane m := rfl
  rw [hcompared, ← hreadied]
  unfold resumeSafety
  split <;> simp

/-- Every command keeps the lanes' counters within their bounds: those that count by the lemma of their operation, those that
leave a lane's core by it, and the others by their frame. -/
theorem exec_fit {c : Instr} (h : LanesFit s) (hs : exec c s = .next t) : LanesFit t := by
  have hcore {u : State} (hu : ∀ m, (u.lane m).core = (s.lane m).core) (hrun : running s u = .next t) : LanesFit t :=
    running_keeps hrun h (h.of_core hu)
  cases c with
  | powerOn straps high =>
    intro m
    have hm : t.lane m = State.reset.lane m := powerOn_same hs (b := .lane m) (by simp)
    rw [hm]
    have hreset : State.reset.lane m = .reset := PerLane.get_fill ..
    rw [hreset]
    exact Counters.fit_reset
  | warmReset => injection hs with hs; exact hs ▸ enterReset_fit
  | leaveWarmReset straps =>
    injection hs with hs
    subst hs
    split
    · exact leaveReset_fit h
    · exact h
  | bankReset p straps =>
    refine running_keeps hs h ?_
    split
    · exact leaveReset_fit enterReset_fit
    · exact h
  | setLane p =>
    refine running_keeps hs h ?_
    split
    · exact atLane_fit h fun _ _ => setLane_fit
    · exact h
  | restartLane p =>
    refine running_keeps hs h ?_
    split
    · exact atLane_fit h fun _ _ => restartLane_fit
    · exact h
  | readLaneCounters p =>
    refine running_keeps hs h ?_
    split
    · exact atLane_fit h fun _ _ => readCounters_fit
    · exact h
  | isolateLane p =>
    refine running_keeps hs h ?_
    split
    · exact atLane_fit h fun _ _ ht => ht.of_core fun _ => isolateLane_core
    · exact h
  | resumeLane p =>
    refine running_keeps hs h ?_
    split
    · exact atLane_fit h fun _ _ ht => ht.of_core fun _ => resumeLane_core
    · exact h
  | alarmReset p =>
    refine running_keeps hs h ?_
    split
    · exact atLane_fit h fun _ _ ht => ht.of_core fun _ => alarmReset_core
    · exact h
  | presentationLookup =>
    refine running_keeps hs h ?_
    repeat' split
    · exact lookupAtTable_fit (h.of_lane fun _ => rfl)
    · exact h.of_lane fun _ => rfl
    · exact h
  | laneCycle l coll =>
    refine running_keeps hs h ?_
    split
    · exact startCycle_fit h
    · exact h
  | noReply l coll =>
    refine running_keeps hs h ?_
    repeat' split
    · exact afterAwait_fit h fun _ ht => unlessVoid_fit ht (unanswered_fit ht)
    all_goals exact h
  | badReply l r coll =>
    refine running_keeps hs h ?_
    repeat' split
    · exact afterAwait_fit h fun _ => takeBad_fit
    · exact afterAwait_fit h fun _ => takeBad_fit
    all_goals exact h
  | jabberReply l coll =>
    refine running_keeps hs h ?_
    split
    · exact afterAwait_fit h fun _ => jabberSlot_fit
    · exact h
  | idleReply l r coll | presentationReply l r coll | senseReply l r coll | profileReply l r coll =>
    exact running_keeps hs h (goodReply_fit h)
  | stray l =>
    refine running_keeps hs h ?_
    split
    · exact countLineError_fit h
    · exact h
  | crossIn l => exact running_keeps hs h (senseStep_fit h fun _ _ ht => attributed_fit ht (crossIn_fit ht))
  | pair l => exact running_keeps hs h (senseStep_fit h fun _ _ ht => attributed_fit ht (pairSeen_fit ht))
  | crossLeaf l => exact running_keeps hs h (senseStep_fit h fun _ _ ht => attributed_fit ht (crossLeaf_fit ht))
  | crossOut l => exact running_keeps hs h (senseStep_fit h fun _ _ ht => attributed_fit ht (crossOut_fit ht))
  | retreat l => exact running_keeps hs h (senseStep_fit h fun _ _ ht => attributed_fit ht (retreat_fit ht))
  | obstructOn l =>
    refine running_keeps hs h (senseStep_fit h fun _ v ht => ?_)
    unfold obstructOn
    split
    · exact ht
    · exact LanesFit.onLane ht (ht l)
  | obstructOff l => exact running_keeps hs h (senseStep_fit h fun _ _ ht => ht.onLane (ht l))
  | senseStateUpdate l => exact running_keeps hs h (senseStep_fit h fun _ _ ht => ht.onLane (ht l))
  | transitTimerExpiry g =>
    refine running_keeps hs h ?_
    repeat' split
    · exact endEvent_fit (raiseAlarm_fit (h.of_core fun _ => endWindow_core))
    all_goals exact h
  | obstructionTimerExpiry l =>
    refine running_keeps hs h ?_
    split
    · exact endEvent_fit (raiseAlarm_fit (h.onLane (h l)))
    · exact h
  | clearTimerExpiry l =>
    refine running_keeps hs h ?_
    split
    · refine endEvent_fit ?_
      split
      · exact h.onLane (h l)
      · exact h.of_core fun _ => backToReady_core
    · exact h
  | displayHoldExpiry l rd =>
    refine running_keeps hs h ?_
    repeat' split
    · exact h.of_core fun _ => showNow_core
    · exact h.of_core fun _ => onDisplay_lane_core
    · exact h
  | activeActionUpdate l =>
    refine running_keeps hs h ?_
    dsimp only
    split
    · rename_i x rest _
      have hset : LanesFit ((s.onMail (fun m => { m with actions := rest })).onLane l (fun u => { u with action := x.2 })) :=
        LanesFit.onLane (s := s.onMail _) h (h l)
      exact endEvent_fit (hset.of_core fun _ => retestPaced_core)
    · exact h
  | setBankMode p | setLaneMask p | setEscort p | takeCalls p | assign p | decline p | restore p | deskPass p =>
    refine hcore (fun m => ?_) hs
    unfold takenByBlock
    repeat' split
    all_goals simp [-takeRequest_occupancy]
  | overtakeOrder l | laneStateReport l | freeRestoreClearExpiry l | lockdownOrder l | escortLockdown | openTimerExpiry g
  | paceIntervalExpiry l | escortRelease | deskPassLookup p
  | sponsorPassage l | laneReleaseNotice l | escortWaitExpiry x | escortEndMessage | callTimerExpiry g | holdForCarReport l | reservationHoldExpiry l =>
    refine hcore (fun m => ?_) hs
    repeat' split
    all_goals simp
  | egressDebounceExpiry | windowRemoval l =>
    refine hcore (fun m => ?_) hs
    dsimp only
    repeat' split
    all_goals simp
  | windowWithdrawal l | dispatchIndication l =>
    refine hcore (fun m => ?_) hs
    split
    · rw [endEvent_core]
      repeat' split
      all_goals simp
    · rfl
  | _ =>
    exact fun m => by
      have hm : t.lane m = s.lane m := commandsKeepFrame _ s t hs (.lane m) (by simp [footprint, answered])
      rw [hm]
      exact h m

/-! ## The disagree counter -/

theorem disagree_of_clock (h : s.clock.disagree ≤ Config.counterMax) (k : Block.clock.same s t) :
    t.clock.disagree ≤ Config.counterMax := by
  change t.clock = s.clock at k
  rwa [k]

/-- Every command keeps the disagree counter within its bounds: those at the clock as R165 and R166 say, the others by their
frame. -/
theorem exec_disagree {c : Instr} (h : s.clock.disagree ≤ Config.counterMax) (hs : exec c s = .next t) :
    t.clock.disagree ≤ Config.counterMax := by
  have hrun {u : State} (hu : u.clock.disagree ≤ Config.counterMax) (hk : running s u = .next t) :
      t.clock.disagree ≤ Config.counterMax := running_keeps (P := fun v => v.clock.disagree ≤ Config.counterMax) hk h hu
  cases c with
  | powerOn straps high =>
    refine disagree_of_clock (s := .reset) (by decide) (powerOn_same hs (b := .clock) (by decide))
  | warmReset => injection hs with hs; exact hs ▸ h
  | leaveWarmReset straps =>
    injection hs with hs
    subst hs
    split
    · exact disagree_of_clock h (leaveReset_same (b := .clock) (by simp))
    · exact h
  | bankReset p straps =>
    refine hrun ?_ hs
    split
    · exact disagree_of_clock (s := enterReset s) h (leaveReset_same (b := .clock) (by simp))
    · exact h
  | clockAdvance =>
    injection hs with hs
    subst hs
    dsimp only
    repeat' split
    · exact h
    · rw [handAdvance_clock]
      exact h
    · exact h
  | setClock p =>
    refine hrun ?_ hs
    split <;> exact h
  | setClockSource p =>
    refine hrun ?_ hs
    unfold takenByBlock
    repeat' split
    all_goals exact h
  | readClock p =>
    refine hrun ?_ hs
    unfold takenByBlock readClock
    dsimp only
    repeat' split
    · exact Nat.zero_le _
    all_goals exact h
  | timeBeacon =>
    refine hrun ?_ hs
    unfold takeBeacon
    dsimp only
    repeat' split
    all_goals first | exact h | exact saturate_le _
  | _ => exact disagree_of_clock h (commandsKeepFrame _ s t hs .clock (by simp [footprint, answered, stateChange, laneEnding, laneReturn, creation]))

/-! ## The head counts and the groups -/

/-- What R111 and R119 say of an occupancy unit. -/
def OccupancyUnit.Bounded (o : OccupancyUnit) : Prop :=
  o.counts.staff ≤ Config.countMax ∧ o.counts.contractor ≤ Config.countMax ∧ o.counts.visitor ≤ Config.countMax
    ∧ ∀ n, (o.groups.get n).enabled = false → (o.groups.get n).active = false

theorem countsLaw_iff : CountsLaw s ↔ s.occupancy.Bounded := Iff.rfl

theorem Group.evaluate_disabled {c : HeadCounts} {g : Group} (h : (g.evaluate c).enabled = false) :
    (g.evaluate c).active = false := by
  have henabled : g.enabled = false := h
  simp [Group.evaluate, henabled]

theorem OccupancyUnit.bounded_reset : OccupancyUnit.reset.Bounded := by
  refine ⟨Nat.zero_le _, Nat.zero_le _, Nat.zero_le _, fun n _ => ?_⟩
  rw [OccupancyUnit.reset_groups_get]
  rfl

theorem OccupancyUnit.warm_bounded {o : OccupancyUnit} (h : o.Bounded) : o.warm.Bounded := by
  obtain ⟨hstaff, hcontractor, hvisitor, -⟩ := h
  refine ⟨hstaff, hcontractor, hvisitor, fun n => ?_⟩
  have hget : o.warm.groups.get n = (o.groups.get n).evaluate o.counts := Groups.get_map ..
  rw [hget]
  exact Group.evaluate_disabled

theorem HeadCounts.put_bounded {c : HeadCounts} {k : Class} {n : Nat} (hn : n ≤ Config.countMax)
    (h : c.staff ≤ Config.countMax ∧ c.contractor ≤ Config.countMax ∧ c.visitor ≤ Config.countMax) :
    (c.put k n).staff ≤ Config.countMax ∧ (c.put k n).contractor ≤ Config.countMax
      ∧ (c.put k n).visitor ≤ Config.countMax := by
  obtain ⟨hstaff, hcontractor, hvisitor⟩ := h
  cases k
  · exact ⟨hn, hcontractor, hvisitor⟩
  · exact ⟨hstaff, hn, hvisitor⟩
  · exact ⟨hstaff, hcontractor, hn⟩

theorem HeadCounts.of_bounded {c : HeadCounts} {k : Class}
    (h : c.staff ≤ Config.countMax ∧ c.contractor ≤ Config.countMax ∧ c.visitor ≤ Config.countMax) :
    c.of k ≤ Config.countMax := by
  cases k
  · exact h.1
  · exact h.2.1
  · exact h.2.2

theorem changeCount_bounded {k : Class} {n : Nat} (hn : n ≤ Config.countMax) (h : s.occupancy.Bounded) :
    (changeCount k n s).occupancy.Bounded := by
  obtain ⟨hstaff, hcontractor, hvisitor, hgroups⟩ := h
  obtain ⟨hstaff', hcontractor', hvisitor'⟩ := HeadCounts.put_bounded (k := k) hn ⟨hstaff, hcontractor, hvisitor⟩
  rw [changeCount, setOccupancy_occupancy]
  refine ⟨hstaff', hcontractor', hvisitor', fun m => ?_⟩
  dsimp only
  rw [evaluateFor_get]
  split
  · exact Group.evaluate_disabled
  · exact hgroups m

theorem setUncertain_bounded {c : UncertainCause} (h : s.occupancy.Bounded) : (setUncertain c s).occupancy.Bounded := by
  rw [setUncertain_occupancy]
  exact h

theorem countPassage_bounded {k : Class} {d : Direction} (h : s.occupancy.Bounded) :
    (countPassage k d s).occupancy.Bounded := by
  obtain ⟨hstaff, hcontractor, hvisitor, -⟩ := id h
  have hof : s.occupancy.counts.of k ≤ Config.countMax := HeadCounts.of_bounded ⟨hstaff, hcontractor, hvisitor⟩
  unfold countPassage
  dsimp only
  split
  · split
    · exact changeCount_bounded (by omega) h
    · exact setUncertain_bounded h
  · split
    · exact changeCount_bounded (by omega) h
    · exact setUncertain_bounded h

theorem applyCounts_bounded {c : HeadCounts}
    (h : c.staff ≤ Config.countMax ∧ c.contractor ≤ Config.countMax ∧ c.visitor ≤ Config.countMax) :
    (applyCounts c s).occupancy.Bounded := by
  obtain ⟨hstaff, hcontractor, hvisitor⟩ := h
  rw [applyCounts, setOccupancy_occupancy]
  refine ⟨hstaff, hcontractor, hvisitor, fun n => ?_⟩
  dsimp only
  rw [Groups.get_map]
  exact Group.evaluate_disabled

theorem setGovernor_bounded {g : Byte} {c : GroupChange} {nominal : Option Nat} (h : s.occupancy.Bounded) :
    (setGovernor p g c nominal s).occupancy.Bounded := by
  obtain ⟨hstaff, hcontractor, hvisitor, hgroups⟩ := id h
  unfold setGovernor
  dsimp only
  split
  · exact h
  split
  · split
    · exact h
    · change (setOccupancy _ s).occupancy.Bounded
      rw [setOccupancy_occupancy]
      exact h
  split
  · exact h
  split
  · exact h
  · rename_i x hx
    change (setOccupancy _ s).occupancy.Bounded
    rw [setOccupancy_occupancy]
    refine ⟨hstaff, hcontractor, hvisitor, fun n => ?_⟩
    dsimp only
    rcases Groups.get_set s.occupancy.groups g.toNat n (if c.any then x.evaluate s.occupancy.counts else x) with hget | hget
    · rw [hget]
      cases hany : c.any
      · rw [if_neg (by simp), writtenGroup_of_not_any hany hx]
        exact hgroups _
      · rw [if_pos rfl]
        exact Group.evaluate_disabled
    · rw [hget]
      exact hgroups n

theorem becomeEgress_occupancy : (becomeEgress s).occupancy = { s.occupancy with uncertain := true } :=
  setUncertain_occupancy

theorem takeWaitingRelease_bounded (h : s.occupancy.Bounded) : (takeWaitingRelease s).occupancy.Bounded := by
  have hsame : (takeWaitingRelease s).occupancy = s.occupancy := (takeWaitingRelease_keeps (b := .occupancy) (by simp)).mpr rfl
  rw [hsame]
  exact h

theorem leaveReset_bounded {straps : BitVec 5} (h : s.occupancy.Bounded) : (leaveReset straps s).occupancy.Bounded := by
  have hegress : (becomeEgress (readied straps s)).occupancy.Bounded := by
    rw [becomeEgress_occupancy]
    exact h
  have htested : (testRestoreEnd (readied straps s)).occupancy = (readied straps s).occupancy :=
    (testRestoreEnd_keeps (b := .occupancy) (by simp)).mpr rfl
  rw [leaveReset_eq]
  change (resumeSafety (readied straps s)).occupancy.Bounded
  unfold resumeSafety
  split
  · exact takeWaitingRelease_bounded hegress
  · rw [htested]
    exact h

theorem testEgress_bounded (h : s.occupancy.Bounded) : (testEgress s).occupancy.Bounded := by
  have hegress : (becomeEgress s).occupancy.Bounded := by
    rw [becomeEgress_occupancy]
    exact h
  unfold testEgress
  split
  · exact takeWaitingRelease_bounded hegress
  · exact h

theorem execLaneStateReport_bounded {r : LaneReport} (h : s.occupancy.Bounded) :
    (if r.leavesFree then testRestoreEnd (testEgress (sendAgain l r s)) else testEgress (sendAgain l r s)).occupancy.Bounded := by
  have hsent : (sendAgain l r s).occupancy = s.occupancy := (sendAgain_keeps (b := .occupancy) (by simp)).mpr rfl
  have htested : (testEgress (sendAgain l r s)).occupancy.Bounded := testEgress_bounded (by rw [hsent]; exact h)
  have hsame : (testRestoreEnd (testEgress (sendAgain l r s))).occupancy = (testEgress (sendAgain l r s)).occupancy :=
    (testRestoreEnd_keeps (b := .occupancy) (by simp)).mpr rfl
  split
  · rw [hsame]
    exact htested
  · exact htested

/-- Every command keeps the bounds of the occupancy unit: those at it as R112 to R121 say, the others by their frame. -/
theorem exec_counts {c : Instr} (h : CountsLaw s) (hs : exec c s = .next t) : CountsLaw t := by
  have hrun {u : State} (hu : u.occupancy.Bounded) (hk : running s u = .next t) : CountsLaw t := running_keeps hk h hu
  have hsame (hk : Block.occupancy.same s t) : CountsLaw t := by
    rw [countsLaw_iff, show t.occupancy = s.occupancy from hk]
    exact h
  cases c with
  | powerOn straps high =>
    rw [countsLaw_iff, show t.occupancy = .reset from powerOn_same hs (b := .occupancy) (by decide)]
    exact OccupancyUnit.bounded_reset
  | warmReset => injection hs with hs; exact hs ▸ OccupancyUnit.warm_bounded h
  | leaveWarmReset straps =>
    injection hs with hs
    subst hs
    split
    · exact leaveReset_bounded h
    · exact h
  | bankReset p straps =>
    refine hrun ?_ hs
    split
    · exact leaveReset_bounded (OccupancyUnit.warm_bounded h)
    · exact h
  | setCounts p =>
    refine hrun ?_ hs
    unfold takenByBlock
    repeat' split
    · exact h
    · rename_i hfit
      simp only [not_or, gt_iff_lt, Nat.not_lt] at hfit
      exact applyCounts_bounded hfit
    · exact h
  | setGovernor p =>
    refine hrun ?_ hs
    unfold takenByBlock
    split
    · exact setGovernor_bounded h
    · exact h
  | occupancyPassage l =>
    refine hrun ?_ hs
    split
    · exact countPassage_bounded h
    · exact h
  | laneStateReport l =>
    refine hrun ?_ hs
    split
    · exact execLaneStateReport_bounded h
    · exact h
  | _ => exact hsame (commandsKeepFrame _ s t hs .occupancy (by simp [footprint, answered, stateChange, laneEnding, laneReturn, creation]))

/-- Settles O10: the counts' bounds, the lanes' counters and the disagree counter, each kept by every command. -/
theorem stepKeepsCounterBounds : Obligations.StepKeepsCounterBounds := fun _ _ hs =>
  ⟨fun h => step_keeps (P := CountsLaw) (fun _ h => h) (fun _ _ h => h) (fun _ _ _ => exec_counts) h hs,
   fun h => step_keeps (P := CountersLaw) (fun _ h => h) (fun _ _ h => h)
    (fun _ _ _ h hc => ⟨exec_fit h.1 hc, exec_disagree h.2 hc⟩) h hs⟩

end Sys2Proof.Machine
end

section
/-!
PROOFS. The journal and the notices (R170 to R180): a record appended, the requests at the journal unit, the notices' reports
and requests.
-/
namespace Sys2Proof.Machine

variable {s : State} {p q : Port}

/-! ## A record appended -/

theorem exec_journalAppend {src : Source} {r : Record} {before after : List (Source × Record)} (h : s.resetHeld = false)
    (hm : s.mail.records = before ++ (src, r) :: after) (hbefore : ∀ y ∈ before, y.1 ≠ src) : exec (.journalAppend src) s
      = .next (appendRecord r (s.onMail (fun m => { m with records := before ++ after }))) := by
  refine (running_of_not_resetHeld h _).trans ?_
  rw [hm, takeFirst_split (p := fun y : Source × Record => y.1 == src) (beq_self_eq_true src) fun y hy =>
    beq_eq_false_iff_ne.mpr (hbefore y hy)]

theorem exec_journalAppend_none {src : Source} (h : s.resetHeld = false) (hm : ∀ y ∈ s.mail.records, y.1 ≠ src) :
    exec (.journalAppend src) s = .next s := by
  refine (running_of_not_resetHeld h _).trans ?_
  rw [takeFirst_none (p := fun y : Source × Record => y.1 == src) fun y hy => beq_eq_false_iff_ne.mpr (hm y hy)]

theorem owedAny_iff {o : PerPort Bool} : owedAny o = true ↔ ∃ p, o.get p = true := by
  simp only [owedAny, Bool.or_eq_true]
  refine ⟨?_, fun ⟨p, hp⟩ => ?_⟩
  · rintro ((h | h) | h)
    · exact ⟨.security, h⟩
    · exact ⟨.reception, h⟩
    · exact ⟨.dispatch, h⟩
  · cases p
    · exact .inl (.inl hp)
    · exact .inl (.inr hp)
    · exact .inr hp

theorem owedAny_owedSet {subs : PerPort KindSet} {r : Record} :
    owedAny (owedSet subs r) = true ↔ ∃ p, (subs.get p).getLsbD r.code.kind = true := by
  simp [owedAny_iff, owedSet]

theorem appendRecord_unowed {r : Record} (h : ∀ p, (s.journal.subs.get p).getLsbD r.code.kind = false) :
    appendRecord r s = s := by
  have hno : ¬ owedAny (owedSet s.journal.subs r) = true := by
    rw [owedAny_owedSet]
    rintro ⟨p, hp⟩
    rw [h p] at hp
    exact absurd hp (by decide)
  exact if_neg hno

theorem appendRecord_journal {r : Record} (h : ∃ p, (s.journal.subs.get p).getLsbD r.code.kind = true) :
    (appendRecord r s).journal = s.journal.join r := by
  rw [appendRecord, if_pos (owedAny_owedSet.mpr h)]
  rfl

theorem appendRecord_records {r : Record} : (appendRecord r s).mail.records = s.mail.records :=
  (appendRecord_keeps (b := .records) (by simp)).mpr rfl

theorem JournalUnit.join_room {u : JournalUnit} {r : Record} (h : u.ring.length < Config.ringCapacity) :
    (u.join r).ring = u.ring ++ [⟨r, owedSet u.subs r, u.nextSeq⟩] ∧ (u.join r).lost = u.lost := by
  have hroom : ¬ u.ring.length ≥ Config.ringCapacity := by omega
  simp [JournalUnit.join, makeRoom, displaced, hroom]

theorem JournalUnit.join_full {u : JournalUnit} {r : Record} {d : RingRec} {rest : List RingRec} (hring : u.ring = d :: rest)
    (h : Config.ringCapacity ≤ u.ring.length) :
    (u.join r).ring = rest ++ [⟨r, owedSet u.subs r, u.nextSeq⟩] ∧ (u.join r).lost = chargeLoss d u.lost := by
  simp [JournalUnit.join, makeRoom, displaced, hring] at h ⊢
  simp [h]

/-- Settles O27: the record's owed set is empty or not, and the ring has room or is full. -/
theorem recordAppended : Obligations.RecordAppended := by
  intro src s h
  refine ⟨exec_journalAppend_none h, fun r before after hm hbefore => ?_⟩
  let u := s.onMail (fun m => { m with records := before ++ after })
  refine ⟨_, exec_journalAppend h hm hbefore, appendRecord_records, fun hnone => ?_, fun hsome => ?_⟩
  · rw [appendRecord_unowed (s := u) hnone]
    rfl
  · rw [appendRecord_journal (s := u) hsome]
    refine ⟨rfl, fun hroom => JournalUnit.join_room hroom, fun d rest hring hlen => ?_⟩
    have hfull : Config.ringCapacity ≤ u.journal.ring.length := by
      rw [show u.journal.ring = d :: rest from hring, List.length_cons, Config.ringCapacity]
      omega
    obtain ⟨hjoined, hlost⟩ := JournalUnit.join_full (u := u.journal) (r := r) hring hfull
    exact ⟨hjoined, fun p => by rw [hlost]; exact PerPort.get_tabulate ..⟩

/-! ## The requests at the journal unit -/

theorem exec_readJournal {x : Byte} (h : Asked p (.readJournal x) s) :
    exec (.readJournal p) s = .next (readJournal p x (taken p s)) := by
  refine (running_of_not_resetHeld h.1 _).trans ?_
  simp only [h.2, takenByBlock, taken]

theorem exec_subscribe {v : BitVec 16} (h : Asked p (.subscribe v) s) :
    exec (.subscribe p) s = .next (subscribe p v (taken p s)) := by
  refine (running_of_not_resetHeld h.1 _).trans ?_
  simp only [h.2, takenByBlock, taken]

theorem exec_journalStatus (h : Asked p .journalStatus s) : exec (.journalStatus p) s = .next (journalStatus p (taken p s)) := by
  refine (running_of_not_resetHeld h.1 _).trans ?_
  simp only [h.2, takenByBlock, taken]

theorem unread_cons {r : RingRec} {ring : List RingRec} :
    unread (r :: ring) p = (if r.owed.get p then 1 else 0) + unread ring p := by
  unfold unread
  by_cases h : r.owed.get p = true
  · simp [h]
    omega
  · simp [h]

/-- A read takes the port's oldest records off its count (R173). -/
theorem unread_readOut_self : ∀ (n : Nat) (ring : List RingRec), unread (readOut p n ring) p = unread ring p - n
  | 0, [] | _ + 1, [] => by simp [readOut, unread]
  | 0, _ :: _ => rfl
  | n + 1, r :: rest => by
    by_cases hr : r.owed.get p = true
    · have ih := unread_readOut_self n rest
      simp only [readOut, hr, if_true]
      split
      · simp [unread_cons, hr, ih]
        omega
      · rw [unread_cons, ih]
        simp [hr]
        omega
    · have ih := unread_readOut_self (n + 1) rest
      simp [readOut, hr, unread_cons, ih]

/-- A read leaves the counts of the other ports: a record leaves the ring only when owed to none (R173). -/
theorem unread_readOut_ne (hq : q ≠ p) : ∀ (n : Nat) (ring : List RingRec), unread (readOut p n ring) q = unread ring q
  | 0, [] | _ + 1, [] => by simp [readOut, unread]
  | 0, _ :: _ => rfl
  | n + 1, r :: rest => by
    have hleft : (r.owed.set p false).get q = r.owed.get q := PerPort.get_set_ne _ _ hq
    by_cases hr : r.owed.get p = true
    · have ih := unread_readOut_ne hq n rest
      simp only [readOut, hr, if_true]
      split
      · rw [unread_cons, unread_cons, ih, hleft]
      · rename_i hnone
        have hno : r.owed.get q = false := by
          rw [← hleft]
          exact Bool.eq_false_iff.mpr fun h => hnone (owedAny_iff.mpr ⟨q, h⟩)
        rw [unread_cons, ih, hno]
        simp
    · have ih := unread_readOut_ne hq (n + 1) rest
      simp [readOut, hr, unread_cons, ih]

theorem readJournal_refused {x : Byte} (h : x.toNat = 0 ∨ 4 < x.toNat) : readJournal p x s = answer p .badField [] s :=
  if_pos h

theorem readJournal_read {x : Byte} (hlow : 1 ≤ x.toNat) (hhigh : x.toNat ≤ 4) : readJournal p x s
    = answer p .ok (journalBody (unread (readOut p x.toNat s.journal.ring) p) (oldestOwed s.journal.ring p x.toNat))
      (setJournal { s.journal with
        ring := readOut p x.toNat s.journal.ring
        cursor := s.journal.cursor.set p
          (cursorAfter (oldestOwed s.journal.ring p x.toNat) (s.journal.cursor.get p)) } s) := by
  refine if_neg ?_
  rw [Config.recordsPerRead]
  omega

/-- Settles O28: READ_JOURNAL by its count, SUBSCRIBE by its set; the status reads the lost count and clears it. -/
theorem journalRequests : Obligations.JournalRequests := by
  intro p s
  refine ⟨fun x h => ⟨fun hx => ?_, fun hlow hhigh => ⟨_, exec_readJournal h, ?_⟩⟩, by cases p <;> rfl,
    fun v h => ⟨fun hv => ?_, fun hv => ?_⟩, fun h => ?_⟩
  · rw [exec_readJournal h, readJournal_refused hx]
  · rw [readJournal_read hlow hhigh]
    exact ⟨answer_reply, unread_readOut_self .., fun q hq => unread_readOut_ne hq .., rfl, rfl⟩
  · rw [exec_subscribe h, subscribe, if_pos hv]
  · rw [exec_subscribe h, subscribe, if_neg (by omega)]
    rfl
  · rw [exec_journalStatus h]
    rfl

/-! ## The notices -/

theorem exec_noticeLevelReport {n : Notice} {x : NoticeMsg} {before after : List NoticeMsg} (h : s.resetHeld = false)
    (hm : s.mail.notices = before ++ x :: after) (hx : isLevel p n x = true) (hbefore : ∀ y ∈ before, isLevel p n y = false) :
    exec (.noticeLevelReport p n) s
      = .next (onNotices p (fun u => u.put n x.value) (s.onMail (fun m => { m with notices := before ++ after }))) := by
  refine (running_of_not_resetHeld h _).trans ?_
  rw [hm, takeFirst_split hx hbefore]

theorem exec_latchedNoticeSet {n : Notice} {x : NoticeMsg} {before after : List NoticeMsg} (h : s.resetHeld = false)
    (hm : s.mail.notices = before ++ x :: after) (hx : isLatched p n x = true)
    (hbefore : ∀ y ∈ before, isLatched p n y = false) : exec (.latchedNoticeSet p n) s
      = .next (onNotices p (fun u => u.put n x.value) (s.onMail (fun m => { m with notices := before ++ after }))) := by
  refine (running_of_not_resetHeld h _).trans ?_
  rw [hm, takeFirst_split hx hbefore]

theorem exec_noticeLevelReport_none {n : Notice} (h : s.resetHeld = false) (hm : ∀ y ∈ s.mail.notices, isLevel p n y = false) :
    exec (.noticeLevelReport p n) s = .next s := by
  refine (running_of_not_resetHeld h _).trans ?_
  rw [takeFirst_none hm]

theorem exec_latchedNoticeSet_none {n : Notice} (h : s.resetHeld = false)
    (hm : ∀ y ∈ s.mail.notices, isLatched p n y = false) : exec (.latchedNoticeSet p n) s = .next s := by
  refine (running_of_not_resetHeld h _).trans ?_
  rw [takeFirst_none hm]

theorem exec_readNotices (h : Asked p .readNotices s) : exec (.readNotices p) s = .next (readNotices p (taken p s)) := by
  refine (running_of_not_resetHeld h.1 _).trans ?_
  simp only [h.2, takenByBlock, taken]

theorem exec_setNoticeMask {c v : BitVec 16} (h : Asked p (.setNoticeMask c v) s) :
    exec (.setNoticeMask p) s = .next (setNoticeMask p c v (taken p s)) := by
  refine (running_of_not_resetHeld h.1 _).trans ?_
  simp only [h.2, takenByBlock, taken]

/-- The latched notices are cleared, and the level notices stay (R179). -/
theorem unlatch_getLsbD (v : BitVec 9) (n : Notice) :
    (v &&& ~~~latchedBits).getLsbD n.num = (!Notice.latched n && v.getLsbD n.num) := by
  cases n <;> simp [Notice.num, Notice.latched, latchedBits]

theorem NoticeUnit.mask_getLsbD (u : NoticeUnit) (c v : BitVec 16) (n : Notice) : (u.mask c v).masked.getLsbD n.num
    = if c.getLsbD n.num then v.getLsbD n.num else u.masked.getLsbD n.num := by
  cases n <;> simp [NoticeUnit.mask, NoticeUnit.settle, Notice.num] <;> split <;> simp_all

theorem readNotices_notices : (readNotices p s).notices.get p
    = NoticeUnit.settle { s.notices.get p with set := (s.notices.get p).set &&& ~~~latchedBits } := PerPort.get_set_self ..

theorem setNoticeMask_refused {c v : BitVec 16} (hc : c.getLsbD 2 = true) (hp : p ≠ .dispatch) :
    setNoticeMask p c v s = answer p .badField [] s := by
  simp [setNoticeMask, hc, hp]

theorem setNoticeMask_taken {c v : BitVec 16} (h : c.getLsbD 2 = false ∨ p = .dispatch) : setNoticeMask p c v s
    = answer p .ok (masksBody ((s.notices.get p).mask c v)) (onNotices p (fun u => u.mask c v) s) := by
  have hno : ¬ (c.getLsbD 2 && p != .dispatch) = true := by
    rcases h with h | h
    · rw [h, Bool.false_and]
      decide
    · simp [h]
  have hget : (onNotices p (fun u => u.mask c v) s).notices.get p = (s.notices.get p).mask c v := PerPort.get_set_self ..
  rw [setNoticeMask, if_neg hno]
  dsimp only
  rw [hget]

/-- Settles O29: the oldest report of the notice is taken or none is; the requests by the bits of the sets they write. -/
theorem notices : Obligations.Notices := by
  refine ⟨fun p n s h => ⟨fun v before after hm hbefore => ?_, fun before after hm hbefore => ?_,
    exec_noticeLevelReport_none h, exec_latchedNoticeSet_none h⟩, fun p s => ⟨fun h => ?_, fun c v h => ⟨fun hc hp => ?_,
    fun hc => ?_⟩⟩⟩
  · exact exec_noticeLevelReport h hm (by simp [isLevel]) hbefore
  · exact exec_latchedNoticeSet h hm (by simp [isLatched]) hbefore
  · refine ⟨_, exec_readNotices h, answer_reply, ?_⟩
    rw [readNotices_notices]
    exact ⟨unlatch_getLsbD _, rfl, rfl, rfl⟩
  · rw [exec_setNoticeMask h, setNoticeMask_refused hc hp]
  · refine ⟨_, exec_setNoticeMask h, ?_⟩
    rw [setNoticeMask_taken hc]
    have hget : (answer p .ok (masksBody (((taken p s).notices.get p).mask c v))
        (onNotices p (fun u => u.mask c v) (taken p s))).notices.get p = (s.notices.get p).mask c v := PerPort.get_set_self ..
    rw [hget]
    exact ⟨NoticeUnit.mask_getLsbD _ c v, rfl, rfl, rfl, answer_reply⟩

end Sys2Proof.Machine
end

section
/-!
PROOFS. The requests at the Permit Table (R11 to R19): when they are taken, the checks in their order, and the table as it
then stands.
-/
namespace Sys2Proof.Machine

variable {s t : State} {p : Port} {c d : Cred} {e : Entry}

/-! ## A request whose turn has come -/

@[simp] theorem takenTurn_table : (takenTurn p s).table = s.table := by cases p <;> rfl

@[simp] theorem takenTurn_mail : (takenTurn p s).mail = s.mail := by cases p <;> rfl

@[simp] theorem takenTurn_stamp : (takenTurn p s).stamp = s.stamp := by cases p <;> rfl

@[simp] theorem takenTurn_entry : (takenTurn p s).entry c = s.entry c := by rw [State.entry, takenTurn_table]; rfl

theorem tableRequest_asked {q : Request} (h : AskedAtTable p q s) : tableRequest s p = some q := by
  obtain ⟨⟨-, hrequest⟩, hturn⟩ := h
  rw [tableRequest, if_pos hturn, hrequest]

theorem standingEntry_of_table (h : t.table = s.table) : standingEntry t c = standingEntry s c := by
  simp [standingEntry, State.entry, h]

theorem standingEntry_eq_some (h : s.entry c = some e) (hstands : e.inRemoval = false) : standingEntry s c = some e := by
  simp [standingEntry, h, hstands]

theorem standingEntry_eq_none (h : ∀ e, s.entry c = some e → e.inRemoval = true) : standingEntry s c = none := by
  cases hc : s.entry c with
  | none => simp [standingEntry, hc]
  | some e => simp [standingEntry, hc, h e hc]

@[simp] theorem answer_entry {st : Status} {body : List Byte} : (answer p st body s).entry c = s.entry c := rfl

/-! ## QUERY_ENTRY, SET_SIDE, SET_QUOTA and TABLE_STATUS -/

theorem exec_queryEntry (h : AskedAtTable p (.queryEntry c) s) :
    exec (.queryEntry p) s = .next (queryEntry p c (takenTurn p s)) := by
  refine (running_of_not_resetHeld h.1.1 _).trans ?_
  rw [tableRequest_asked h]
  rfl

theorem exec_setSide {x : Byte} (h : AskedAtTable p (.setSide c x) s) :
    exec (.setSide p) s = .next (setSide p c x (takenTurn p s)) := by
  refine (running_of_not_resetHeld h.1.1 _).trans ?_
  rw [tableRequest_asked h]
  rfl

theorem exec_setQuota {v : Nat} (h : AskedAtTable p (.setQuota v) s) :
    exec (.setQuota p) s = .next (setQuota p v (takenTurn p s)) := by
  refine (running_of_not_resetHeld h.1.1 _).trans ?_
  rw [tableRequest_asked h]
  rfl

theorem exec_tableStatus (h : AskedAtTable p .tableStatus s) :
    exec (.tableStatus p) s = .next (answer p .ok (tableBody s.table) (takenTurn p s)) := by
  refine (running_of_not_resetHeld h.1.1 _).trans ?_
  rw [tableRequest_asked h, ← takenTurn_table (p := p)]
  rfl

theorem Side.ofNum_num (x : Side) : Side.ofNum x.num = some x := by cases x <;> rfl

theorem Side.ofNum_large {n : Nat} (h : 2 < n) : Side.ofNum n = none := by
  obtain ⟨k, rfl⟩ : ∃ k, n = k + 3 := ⟨n - 3, by omega⟩
  rfl

/-- Settles O30: an entry that stands or none, and the bounds of the bytes given. -/
theorem tableRequests : Obligations.TableRequests := by
  intro p s
  refine ⟨fun c h => ⟨fun hnone => ?_, fun e he hstands => ?_⟩,
    fun c x h => ⟨fun hnone => ?_, fun e he hstands hx => ?_, fun e y he hstands hy => ⟨_, exec_setSide h, ?_⟩⟩,
    fun v h => ⟨fun hv => ?_, fun hmax hcount => ?_⟩, exec_tableStatus⟩
  · rw [exec_queryEntry h, queryEntry, standingEntry_eq_none (by simpa using hnone)]
  · rw [exec_queryEntry h, queryEntry, standingEntry_eq_some (e := e) (by simpa using he) hstands]
  · rw [exec_setSide h, setSide, standingEntry_eq_none (by simpa using hnone)]
  · rw [exec_setSide h, setSide, standingEntry_eq_some (e := e) (by simpa using he) hstands, Side.ofNum_large hx]
  · have hset : setSide p c x (takenTurn p s)
        = answer p .ok [] (onEntry c (fun e => { e with side := y }) (takenTurn p s)) := by
      rw [setSide, standingEntry_eq_some (e := e) (by simpa using he) hstands, ← hy, Side.ofNum_num]
    have hentry (d : Cred) : (setSide p c x (takenTurn p s)).entry d
        = if d = c then (s.entry d).map (fun e => { e with side := y }) else s.entry d := by
      rw [hset, answer_entry, entry_onEntry (f := fun e => { e with side := y }) (fun _ => rfl), takenTurn_entry]
    refine ⟨?_, fun d hd => ?_, by rw [hset]; exact answer_reply⟩
    · rw [hentry, if_pos rfl, he]
      rfl
    · rw [hentry, if_neg hd]
  · have hno : v > Config.quotaMax ∨ v < (takenTurn p s).table.receptionCount := by
      rw [takenTurn_table]
      exact hv
    rw [exec_setQuota h, setQuota, if_pos hno]
  · have hyes : ¬ (v > Config.quotaMax ∨ v < (takenTurn p s).table.receptionCount) := by
      rw [takenTurn_table, Config.quotaMax]
      omega
    rw [exec_setQuota h, setQuota, if_neg hyes, State.onTable, takenTurn_table]

/-! ## INSERT_ENTRY -/

theorem sponsorRefusal_noSponsor (h : ∀ x, s.entry c = some x → x.inRemoval = true ∨ x.cls ≠ .staff) :
    sponsorRefusal s c = some .noSponsor := by
  cases hx : standingEntry s c with
  | none => simp [sponsorRefusal, hx]
  | some x =>
    obtain ⟨hentry, hstands⟩ := standingEntry_some hx
    have hcls : x.cls ≠ .staff := (h x hentry).resolve_left (by simp [hstands])
    simp [sponsorRefusal, hx, hcls]

theorem sponsorRefusal_full {x : Entry} (hx : s.entry c = some x) (hstands : x.inRemoval = false) (hcls : x.cls = .staff)
    (hrefs : 255 ≤ x.refs) : sponsorRefusal s c = some .sponsorFull := by
  simp [sponsorRefusal, standingEntry_eq_some hx hstands, hcls, hrefs]

theorem sponsorRefusal_none {x : Entry} (hx : s.entry c = some x) (hstands : x.inRemoval = false) (hcls : x.cls = .staff)
    (hrefs : x.refs < 255) : sponsorRefusal s c = none := by
  simp [sponsorRefusal, standingEntry_eq_some hx hstands, hcls, hrefs]

theorem sponsorRefusal_of_table (h : t.table = s.table) : sponsorRefusal t c = sponsorRefusal s c := by
  rw [sponsorRefusal, standingEntry_of_table h]
  rfl

theorem insertCheck_of_table {im : InsertImage} (h : t.table = s.table) : insertCheck t p im = insertCheck s p im := by
  have hsponsor : sponsorRefusal t = sponsorRefusal s := funext fun _ => sponsorRefusal_of_table h
  simp only [insertCheck, State.entry, h, hsponsor]
  rfl

theorem exec_insertEntry {im : InsertImage} (h : AskedAtTable p (.insertEntry im) s) : exec (.insertEntry p) s
    = .next (match insertCheck s p im with
      | .error st => answer p st [] (takenTurn p s)
      | .ok e => answer p .ok [] (addEntry e (takenTurn p s))) := by
  refine (running_of_not_resetHeld h.1.1 _).trans ?_
  rw [tableRequest_asked h, ← insertCheck_of_table takenTurn_table]
  rfl

section InsertCheck

variable {im : InsertImage}

theorem insertCheck_rights (h : p = .reception ∧ (Class.ofNum (field im.a 6 2) ≠ some .visitor ∨ im.a.getLsbD 0 = true)) :
    insertCheck s p im = .error .rights := if_pos h

variable (hrights : ¬ (p = .reception ∧ (Class.ofNum (field im.a 6 2) ≠ some .visitor ∨ im.a.getLsbD 0 = true)))
include hrights

theorem insertCheck_badField (h : imageEntry p im = none) : insertCheck s p im = .error .badField := by
  rw [insertCheck, if_neg hrights, h]

variable (himage : imageEntry p im = some e)
include himage

theorem insertCheck_duplicate (h : s.entry e.cred ≠ none ∨ ∃ d ∈ s.table.departed, d.cred = e.cred) :
    insertCheck s p im = .error .duplicate := by
  have hdup : ((s.entry e.cred).isSome || s.table.departed.any (fun d => d.cred == e.cred)) = true := by
    rcases h with h | ⟨d, hd, hcred⟩
    · simp [Option.isSome_iff_ne_none.mpr h]
    · rw [Bool.or_eq_true, List.any_eq_true]
      exact .inr ⟨d, hd, beq_iff_eq.mpr hcred⟩
  rw [insertCheck, if_neg hrights, himage]
  exact if_pos hdup

variable (hnew : s.entry e.cred = none) (hdeparted : ∀ d ∈ s.table.departed, d.cred ≠ e.cred)
include hnew hdeparted

/-- The checks that follow those of R11's first refusals. -/
theorem insertCheck_new : insertCheck s p im
    = if s.table.entries.length ≥ Config.tableCapacity then .error .tableFull
      else if p = .reception ∧ s.table.receptionCount ≥ s.table.quota then .error .quotaFull
      else match e.sponsor.bind (sponsorRefusal s) with
        | some st => .error st
        | none => .ok e := by
  have hno : ¬ ((s.entry e.cred).isSome || s.table.departed.any (fun d => d.cred == e.cred)) = true := by
    simpa [hnew] using hdeparted
  rw [insertCheck, if_neg hrights, himage]
  exact if_neg hno

end InsertCheck

theorem insertSorted_length (e : Entry) (es : List Entry) : (insertSorted e es).length = es.length + 1 :=
  (insertSorted_perm e es).length_eq

/-- The entry added, its sponsor's refs, and the other entries (R8, R11). -/
theorem entry_addEntry (hnew : s.entry e.cred = none) (hsponsor : e.sponsor ≠ some e.cred) : (addEntry e s).entry d
    = if d = e.cred then some e
      else if e.sponsor = some d then (s.entry d).map (fun x => { x with refs := x.refs + 1 }) else s.entry d := by
  have hinserted (t : State) (ht : t.table.entries = insertSorted e s.table.entries) :
      t.entry d = if d = e.cred then some e else s.entry d := by
    rw [State.entry, ht, findEntry_insertSorted hnew]
    rfl
  unfold addEntry
  dsimp only
  cases hc : e.sponsor with
  | none =>
    rw [hinserted _ rfl]
    simp
  | some c =>
    rw [entry_addRef, hinserted _ rfl]
    have hne : c ≠ e.cred := fun h => hsponsor (by rw [hc, h])
    by_cases hd : d = c
    · simp [hd, hne]
    · simp [hd, Ne.symm hd]

theorem addEntry_length : (addEntry e s).table.entries.length = s.table.entries.length + 1 := by
  unfold addEntry
  dsimp only
  split
  · simp [addRef, onEntry, mapEntry, insertSorted_length]
  · simp [insertSorted_length]

theorem addEntry_receptionCount : (addEntry e s).table.receptionCount
    = if e.issuer = .reception then s.table.receptionCount + 1 else s.table.receptionCount := by
  unfold addEntry
  dsimp only
  split <;> rfl

theorem imageEntry_issuer {im : InsertImage} (h : imageEntry p im = some e) : e.issuer = .reception ↔ p = .reception := by
  refine ⟨imageEntry_reception h, fun hp => ?_⟩
  unfold imageEntry at h
  split at h
  · dsimp only at h
    rw [if_pos hp] at h
    split at h
    · rw [← Option.some.inj h]
    · exact absurd h (by simp)
  · exact absurd h (by simp)

/-- Settles O31: the checks one by one in their order, then the table with the entry added. -/
theorem entryInserted : Obligations.EntryInserted := by
  intro p im s h
  refine ⟨_, exec_insertEntry h, fun hrights => ?_, fun hrights => ⟨fun hbad => ?_, fun e himage => ⟨fun hdup => ?_,
    fun hnew hdeparted => ?_⟩⟩⟩
  · rw [insertCheck_rights hrights]
  · rw [insertCheck_badField hrights hbad]
  · rw [insertCheck_duplicate hrights himage hdup]
  rw [insertCheck_new hrights himage hnew hdeparted]
  refine ⟨fun hfull => ?_, fun hroom => ?_⟩
  · rw [if_pos (show s.table.entries.length ≥ Config.tableCapacity from hfull)]
  rw [if_neg (show ¬ s.table.entries.length ≥ Config.tableCapacity from Nat.not_le.mpr hroom)]
  refine ⟨fun hquota => ?_, fun hquota => ?_⟩
  · rw [if_pos (show p = .reception ∧ s.table.receptionCount ≥ s.table.quota from hquota)]
  rw [if_neg (show ¬ (p = .reception ∧ s.table.receptionCount ≥ s.table.quota) from hquota)]
  refine ⟨fun c hc hno => ?_, fun c x hc hx hstands hcls hrefs => ?_, fun hsponsor => ?_⟩
  · rw [hc, Option.bind_some, sponsorRefusal_noSponsor hno]
  · rw [hc, Option.bind_some, sponsorRefusal_full hx hstands hcls hrefs]
  · have hallowed : e.sponsor.bind (sponsorRefusal s) = none := by
      cases hc : e.sponsor with
      | none => rfl
      | some c =>
        obtain ⟨x, hx, hstands, hcls, hrefs⟩ := hsponsor c hc
        exact sponsorRefusal_none hx hstands hcls hrefs
    have hother : e.sponsor ≠ some e.cred := fun hc => by
      obtain ⟨x, hx, -⟩ := hsponsor _ hc
      rw [hnew] at hx
      exact absurd hx (by simp)
    have hnew' : (takenTurn p s).entry e.cred = none := by rw [takenTurn_entry]; exact hnew
    rw [hallowed]
    refine ⟨?_, ?_, ?_, fun c x hc hx => ?_, fun c hne hno => ?_, answer_reply⟩
    · rw [answer_entry, entry_addEntry hnew' hother, if_pos rfl]
    · exact addEntry_length.trans (by rw [takenTurn_table])
    · refine addEntry_receptionCount.trans ?_
      rw [takenTurn_table]
      by_cases hp : p = .reception
      · rw [if_pos ((imageEntry_issuer himage).mpr hp), if_pos hp]
      · rw [if_neg (mt (imageEntry_issuer himage).mp hp), if_neg hp]
        rfl
    · have hne : c ≠ e.cred := fun hceq => hother (hceq ▸ hc)
      rw [answer_entry, entry_addEntry hnew' hother, if_neg hne, if_pos hc, takenTurn_entry, hx]
      rfl
    · rw [answer_entry, entry_addEntry hnew' hother, if_neg hne, if_neg hno, takenTurn_entry]

end Sys2Proof.Machine
end

section
/-!
PROOFS. MODIFY_ENTRY (R8, R12, R13): its checks in their order, and the table and the messages after it.
-/
namespace Sys2Proof.Machine

variable {s t : State} {p : Port} {c d : Cred} {e e' : Entry} {im : ModifyImage} {w : Bool} {cl : Option Claim}

/-! ## The withdraw option -/

/-- The withdrawals that the withdraw option sends for a claim (R13). -/
def withdrawalsOf (w : Bool) (cl : Option Claim) : List Tag :=
  match w, cl with
  | true, some (.window g) => [g]
  | _, _ => []

/-- The state and the answer of the withdraw option, asked for or not (R13). -/
def withdrawIf (w : Bool) (cl : Option Claim) (s : State) : State × Bool := if w then withdrawClaim cl s else (s, false)

theorem withdrawIf_state : (withdrawIf w cl s).1
    = s.onMail (fun m => { m with withdrawals := m.withdrawals ++ withdrawalsOf w cl }) := by
  have hnone : s = s.onMail (fun m => { m with withdrawals := m.withdrawals ++ [] }) := by simp [State.onMail]
  rcases w with _ | _
  · exact hnone
  · rcases cl with _ | (g | _)
    · exact hnone
    · rfl
    · exact hnone

theorem withdrawIf_sent : (withdrawIf w cl s).2 = (match w, cl with | true, some (.window _) => true | _, _ => false) := by
  rcases w with _ | _
  · rfl
  · rcases cl with _ | (g | _) <;> rfl

theorem sentBody_withdrawIf : sentBody w (withdrawIf w cl s).2
    = (match w, cl with | true, some (.window _) => [1] | true, _ => [0] | false, _ => []) := by
  rcases w with _ | _
  · rfl
  · rcases cl with _ | (g | _) <;> rfl

theorem withdrawIf_table : (withdrawIf w cl s).1.table = s.table := by rw [withdrawIf_state]; rfl

/-! ## The checks of MODIFY_ENTRY -/

theorem modifyCheck_of_table (h : t.table = s.table) : modifyCheck t p im = modifyCheck s p im := by
  have hsponsor : sponsorRefusal t = sponsorRefusal s := funext fun _ => sponsorRefusal_of_table h
  rw [modifyCheck, standingEntry_of_table h, hsponsor]
  rfl

/-- MODIFY_ENTRY after checks that pass (R12, R13). -/
def modifyDone (p : Port) (im : ModifyImage) (e e' : Entry) (s : State) : State :=
  answer p .ok (sentBody im.withdraw (withdrawIf im.withdraw e.claim (applyModify e e' s)).2)
    (withdrawIf im.withdraw e.claim (applyModify e e' s)).1

theorem exec_modifyEntry (h : AskedAtTable p (.modifyEntry im) s) : exec (.modifyEntry p) s
    = .next (match modifyCheck s p im with
      | .error st => answer p st [] (takenTurn p s)
      | .ok (e, e') => modifyDone p im e e' (takenTurn p s)) := by
  refine (running_of_not_resetHeld h.1.1 _).trans ?_
  rw [tableRequest_asked h, ← modifyCheck_of_table takenTurn_table]
  rfl

/-- The refusal of a newly named sponsor (R8, R12). -/
def newSponsorRefusal (s : State) (e e' : Entry) : Option Status :=
  if e'.sponsor = e.sponsor then none
  else e'.sponsor.bind (fun c => if c = e.cred then some .noSponsor else sponsorRefusal s c)

section ModifyCheck

variable (he : s.entry im.cred = some e) (hstands : e.inRemoval = false)
include he hstands

theorem modifyCheck_rights (h : mayModify p e im = false) : modifyCheck s p im = .error .rights := by
  simp only [modifyCheck, standingEntry_eq_some he hstands, h]
  rfl

variable (hmay : mayModify p e im = true)
include hmay

theorem modifyCheck_badField (h : modified e im = none) : modifyCheck s p im = .error .badField := by
  simp only [modifyCheck, standingEntry_eq_some he hstands, hmay, h]
  rfl

variable (hmodified : modified e im = some e')
include hmodified

theorem modifyCheck_modified : modifyCheck s p im = match newSponsorRefusal s e e' with
    | some st => .error st
    | none => if e.cls = .staff ∧ e'.cls ≠ .staff ∧ e.refs > 0 then .error .sponsorInUse else .ok (e, e') := by
  simp only [modifyCheck, standingEntry_eq_some he hstands, hmay, hmodified]
  rfl

end ModifyCheck

theorem newSponsorRefusal_named (hc : e'.sponsor = some c) (hnew : e.sponsor ≠ some c) :
    newSponsorRefusal s e e' = if c = e.cred then some .noSponsor else sponsorRefusal s c := by
  rw [newSponsorRefusal, if_neg (by rw [hc]; exact hnew.symm), hc]
  rfl

theorem newSponsorRefusal_none (h : ∀ c, e'.sponsor = some c → e.sponsor ≠ some c →
    c ≠ e.cred ∧ ∃ x, s.entry c = some x ∧ x.inRemoval = false ∧ x.cls = .staff ∧ x.refs < 255) :
    newSponsorRefusal s e e' = none := by
  by_cases hsame : e'.sponsor = e.sponsor
  · exact if_pos hsame
  · cases hc : e'.sponsor with
    | none => rw [newSponsorRefusal, if_neg hsame, hc]; rfl
    | some c =>
      have hnew : e.sponsor ≠ some c := fun hold => hsame (hc.trans hold.symm)
      obtain ⟨hne, x, hx, hstands, hcls, hrefs⟩ := h c hc hnew
      rw [newSponsorRefusal_named hc hnew, if_neg hne, sponsorRefusal_none hx hstands hcls hrefs]

/-! ## The modify carried out -/

/-- A change of one entry, by a function that keeps its credential. -/
theorem entry_onEntry_of {f : Entry → Entry} (hf : ∀ x, x.cred = c → (f x).cred = c) :
    (onEntry c f s).entry d = if d = c then (s.entry d).map f else s.entry d := by
  have hsame : mapEntry c f s.table.entries = mapEntry c (fun x => if x.cred = c then f x else x) s.table.entries := by
    refine List.map_congr_left fun x _ => ?_
    by_cases hx : x.cred = c <;> simp [hx]
  have hkeeps (x : Entry) : (if x.cred = c then f x else x).cred = x.cred := by
    split
    · rename_i hx
      rw [hf x hx, hx]
    · rfl
  have hentry := findEntry_mapEntry (c := c) (d := d) hkeeps s.table.entries
  rw [← hsame] at hentry
  refine hentry.trans ?_
  by_cases hd : d = c
  · rw [if_pos hd, if_pos hd]
    cases hx : s.entry d with
    | none => rw [show findEntry d s.table.entries = none from hx]; rfl
    | some x =>
      have hcred : x.cred = c := (State.entry_some hx).2.trans hd
      rw [show findEntry d s.table.entries = some x from hx]
      simp [hcred]
  · rw [if_neg hd, if_neg hd]
    rfl

/-- The refs at the sponsors after a modify: one fewer at a former sponsor, one more at a new one (R8). -/
theorem entry_moveRefs {former new : Option Cred} : (moveRefs former new s).entry d
    = (s.entry d).map (fun x => if former = new then x
        else if new = some d then { x with refs := x.refs + 1 }
        else if former = some d then { x with refs := x.refs - 1 } else x) := by
  have hid : (fun x : Entry => x) = id := rfl
  unfold moveRefs
  by_cases hsame : former = new
  · simp [hsame, hid]
  · rw [if_neg hsame]
    simp only [hsame, if_false]
    rcases former with _ | c <;> rcases new with _ | k
    · exact absurd rfl hsame
    · by_cases hk : k = d
      · simp [entry_addRef, hk]
      · simp [entry_addRef, hk, Ne.symm hk, hid]
    · by_cases hc : c = d
      · simp [entry_dropRef, hc]
      · simp [entry_dropRef, hc, Ne.symm hc, hid]
    · have hck : c ≠ k := fun h => hsame (by rw [h])
      by_cases hk : k = d
      · have hcd : ¬ d = c := fun h => hck (h.symm.trans hk.symm)
        simp [entry_addRef, entry_dropRef, hk, hcd]
      · by_cases hc : c = d
        · simp [entry_addRef, entry_dropRef, hk, Ne.symm hk, hc]
        · simp [entry_addRef, entry_dropRef, hk, Ne.symm hk, hc, Ne.symm hc, hid]

@[simp] theorem moveRefs_mail {former new : Option Cred} : (moveRefs former new s).mail = s.mail := by
  unfold moveRefs
  rcases former with _ | c <;> rcases new with _ | k <;> dsimp only <;> split <;> rfl

/-- The entry that a modify leaves (R12). -/
def afterModify (e e' : Entry) : Entry :=
  { e' with claim := if e.sponsor ≠ e'.sponsor ∧ e.claim = some .wait then none else e'.claim }

/-- What a modify keeps of an entry that it does not name: its refs and its claim (R12). -/
theorem modified_refs (h : modified e im = some e') : e'.refs = e.refs ∧ e'.claim = e.claim := by
  simp only [modified, Option.bind_eq_some_iff] at h
  obtain ⟨_, _, _, _, _, _, _, _, _, _, _, _, h⟩ := h
  split at h
  · rw [← Option.some.inj h]
    exact ⟨rfl, rfl⟩
  · exact absurd h (by simp)

theorem entry_applyModify (he : s.entry e.cred = some e) (hcred : e'.cred = e.cred) (hrefs : e'.refs = e.refs)
    (hclaim : e'.claim = e.claim) : (applyModify e e' s).entry d
    = (if d = e.cred then some (afterModify e e') else s.entry d).map (fun x => if e.sponsor = e'.sponsor then x
        else if e'.sponsor = some d then { x with refs := x.refs + 1 }
        else if e.sponsor = some d then { x with refs := x.refs - 1 } else x) := by
  have htold {b : Prop} [Decidable b] {u : State} {x : EscortEnd} :
      (if b then tellEscort x u else u).entry d = u.entry d := by split <;> rfl
  have hset := entry_onEntry_of (s := s) (c := e.cred) (d := d) (f := fun x => { e' with
    refs := x.refs, claim := if e.sponsor ≠ e'.sponsor ∧ e.claim = some .wait then none else x.claim }) fun _ _ => hcred
  have hset' : ({ e' with refs := e.refs
                          claim := if e.sponsor ≠ e'.sponsor ∧ e.claim = some .wait then none else e.claim } : Entry)
      = afterModify e e' := by
    rw [afterModify, hclaim, ← hrefs]
  unfold applyModify
  dsimp only
  rw [htold, entry_moveRefs, hset]
  by_cases hd : d = e.cred
  · rw [if_pos hd, if_pos hd, hd, he, Option.map_some, hset']
  · rw [if_neg hd, if_neg hd]

theorem applyModify_mail : (applyModify e e' s).mail = { s.mail with
    escortEnds := s.mail.escortEnds ++ (if e.sponsor ≠ e'.sponsor ∧ e.claim = some .wait then [.wait e.cred] else []) } := by
  unfold applyModify
  dsimp only
  split
  · simp only [tellEscort, State.onMail_fields, moveRefs_mail]
    rfl
  · rw [moveRefs_mail, List.append_nil]
    rfl

theorem modifyDone_entry : (modifyDone p im e e' s).entry d = (applyModify e e' s).entry d := by
  change (withdrawIf im.withdraw e.claim (applyModify e e' s)).1.entry d = _
  rw [State.entry, withdrawIf_table]
  rfl

theorem modifyDone_messages : (modifyDone p im e e' s).mail.escortEnds = (applyModify e e' s).mail.escortEnds
    ∧ (modifyDone p im e e' s).mail.withdrawals
      = (applyModify e e' s).mail.withdrawals ++ withdrawalsOf im.withdraw e.claim := by
  unfold modifyDone
  rw [withdrawIf_state]
  exact ⟨rfl, rfl⟩

/-- Settles O32: the checks in their order; then the entry as it stands, the refs of the former and the new sponsor, and the
two messages. -/
theorem entryModified : Obligations.EntryModified := by
  intro p im s h
  refine ⟨_, exec_modifyEntry h, fun hnone => ?_, fun e he hstands => ⟨fun hmay => ?_, fun hmay hbad => ?_,
    fun e' hmay hmodified => ⟨fun c hc hnew => ⟨fun hno => ?_, fun x hne hx hxstands hcls hrefs => ?_⟩, fun hsponsor =>
    ⟨fun huse => ?_, fun huse hself => ?_⟩⟩⟩⟩
  · simp only [modifyCheck, standingEntry_eq_none hnone]
  · rw [modifyCheck_rights he hstands hmay]
  · rw [modifyCheck_badField he hstands hmay hbad]
  · rw [modifyCheck_modified he hstands hmay hmodified, newSponsorRefusal_named hc hnew]
    by_cases hself : c = e.cred
    · rw [if_pos hself]
    · rw [if_neg hself, sponsorRefusal_noSponsor (hno.resolve_left hself)]
  · rw [modifyCheck_modified he hstands hmay hmodified, newSponsorRefusal_named hc hnew, if_neg hne,
      sponsorRefusal_full hx hxstands hcls hrefs]
  · rw [modifyCheck_modified he hstands hmay hmodified, newSponsorRefusal_none hsponsor]
    simp only [gt_iff_lt, huse, ne_eq, not_false_eq_true, and_self, if_true]
  · rw [modifyCheck_modified he hstands hmay hmodified, newSponsorRefusal_none hsponsor]
    simp only [gt_iff_lt]
    rw [if_neg huse]
    obtain ⟨-, hcredName⟩ := State.entry_some he
    obtain ⟨hcred, -⟩ := modified_some hmodified
    obtain ⟨hrefs, hclaim⟩ := modified_refs hmodified
    obtain ⟨hends, hwithdrawals⟩ := modifyDone_messages (p := p) (im := im) (e := e) (e' := e') (s := takenTurn p s)
    have hentry (d : Cred) : (modifyDone p im e e' (takenTurn p s)).entry d
        = (if d = e.cred then some (afterModify e e') else s.entry d).map (fun x => if e.sponsor = e'.sponsor then x
            else if e'.sponsor = some d then { x with refs := x.refs + 1 }
            else if e.sponsor = some d then { x with refs := x.refs - 1 } else x) := by
      rw [modifyDone_entry, entry_applyModify (by rw [takenTurn_entry, hcredName]; exact he) hcred hrefs hclaim,
        takenTurn_entry]
    have hnewSelf : e.sponsor ≠ e'.sponsor → e'.sponsor ≠ some e.cred := fun hchanged hc =>
      (hsponsor _ hc hself).1 rfl
    refine ⟨?_, fun hsame c hne => ?_, fun c x hc hnew hx => ?_, fun c x hc hgone hx => ?_, ?_, ?_, ?_⟩
    · rw [hentry, if_pos rfl, Option.map_some]
      by_cases hsame : e.sponsor = e'.sponsor
      · rw [if_pos hsame]
        rfl
      · rw [if_neg hsame, if_neg (hnewSelf hsame), if_neg hself]
        rfl
    · rw [hentry, if_neg hne]
      simp only [hsame, if_true]
      exact Option.map_id'
    · have hne : c ≠ e.cred := (hsponsor c hc hnew).1
      have hchanged : e.sponsor ≠ e'.sponsor := fun hsame => hnew (hsame.trans hc)
      rw [hentry, if_neg hne, hx, Option.map_some, if_neg hchanged, if_pos hc]
    · have hne : c ≠ e.cred := fun hceq => hself (hceq ▸ hc)
      have hchanged : e.sponsor ≠ e'.sponsor := fun hsame => hgone (hsame ▸ hc)
      rw [hentry, if_neg hne, hx, Option.map_some, if_neg hchanged, if_neg hgone, if_pos hc]
    · rw [hends, applyModify_mail, takenTurn_mail]
    · rw [hwithdrawals, applyModify_mail, takenTurn_mail]
      rfl
    · exact answer_reply.trans (by rw [sentBody_withdrawIf] <;> rfl)

end Sys2Proof.Machine
end

section
/-!
PROOFS. Removals from the Permit Table: REVOKE_ENTRY and PURGE (R9, R13, R14, R18, R20), and the steps of their walks (R15,
R18).
-/
namespace Sys2Proof.Machine

variable {s t u : State} {p : Port} {c d : Cred} {e : Entry}

/-! ## A removal -/

theorem removeEntry_receptionCount : (removeEntry e s).table.receptionCount
    = if e.issuer = .reception then s.table.receptionCount - 1 else s.table.receptionCount := by
  unfold removeEntry
  dsimp only
  split <;> split <;> rfl

theorem removeEntry_departed : (removeEntry e s).table.departed = (match e.claim with
    | some (.window g) => s.table.departed ++ [⟨g, e.cred⟩]
    | _ => s.table.departed) := by
  unfold removeEntry
  dsimp only
  split <;> split <;> split <;> rfl

theorem removeEntry_waiting : (removeEntry e s).table.waiting = s.table.waiting := by
  unfold removeEntry
  dsimp only
  split <;> split <;> rfl

theorem removeEntry_mail : (removeEntry e s).mail = { s.mail with
    escortEnds := s.mail.escortEnds ++ (if e.claim = some .wait then [.wait e.cred, .credit e.cred] else [.credit e.cred]) } := by
  unfold removeEntry
  dsimp only
  split <;> split <;> simp [tellEscort, dropRef, onEntry]

theorem removeEntry_arbiter : (removeEntry e s).arbiter = s.arbiter := (removeEntry_keeps (b := .arbiter) (by simp)).mpr rfl

theorem removeEntry_clock : (removeEntry e s).clock = s.clock := (removeEntry_keeps (b := .clock) (by simp)).mpr rfl

theorem removeEntry_stamp : (removeEntry e s).stamp = s.stamp := by simp [State.stamp, removeEntry_clock]

/-! ## REVOKE_ENTRY and PURGE -/

/-- REVOKE_ENTRY after checks that pass (R14). -/
def revokeDone (p : Port) (c : Cred) (w : Bool) (e : Entry) (s : State) : State :=
  if e.refs > 0 then askWalk (.forcedRevoke c w) s
  else answer p .ok (sentBody w (revokeNow e w s).2) (revokeNow e w s).1

theorem revokeCheck_of_table {f : Bool} (h : t.table = s.table) : revokeCheck t p c f = revokeCheck s p c f := by
  rw [revokeCheck, standingEntry_of_table h]
  rfl

theorem exec_revokeEntry {w f : Bool} (h : AskedAtTable p (.revokeEntry c w f) s) : exec (.revokeEntry p) s
    = .next (match revokeCheck s p c f with
      | .error st => answer p st [] (takenTurn p s)
      | .ok e => revokeDone p c w e (takenTurn p s)) := by
  refine (running_of_not_resetHeld h.1.1 _).trans ?_
  rw [tableRequest_asked h, ← revokeCheck_of_table takenTurn_table]
  rfl

theorem exec_purge {cl is : Byte} (h : AskedAtTable p (.purge cl is) s) :
    exec (.purge p) s = .next (purge p cl is (takenTurn p s)) := by
  refine (running_of_not_resetHeld h.1.1 _).trans ?_
  rw [tableRequest_asked h]
  rfl

theorem revokeNow_state {w : Bool} : (revokeNow e w s).1 = tableRecord .revoked (some e.cred) .none
    ((removeEntry e s).onMail (fun m => { m with withdrawals := m.withdrawals ++ withdrawalsOf w e.claim })) := by
  rw [← withdrawIf_state]
  rfl

theorem revokeNow_sent {w : Bool} : (revokeNow e w s).2 = (withdrawIf w e.claim (removeEntry e s)).2 := rfl

theorem revokeNow_entry {w : Bool} : (revokeNow e w s).1.entry d = (removeEntry e s).entry d := by
  rw [revokeNow_state]
  rfl

theorem revokeNow_table {w : Bool} : (revokeNow e w s).1.table = (removeEntry e s).table := by
  rw [revokeNow_state]
  rfl

theorem revokeNow_escortEnds {w : Bool} : (revokeNow e w s).1.mail.escortEnds = s.mail.escortEnds
    ++ (if e.claim = some .wait then [.wait e.cred, .credit e.cred] else [.credit e.cred]) := by
  have hmail : (revokeNow e w s).1.mail.escortEnds = (removeEntry e s).mail.escortEnds := by
    rw [revokeNow_state]
    rfl
  rw [hmail, removeEntry_mail]

theorem revokeNow_records {w : Bool} : (revokeNow e w s).1.mail.records
    = s.mail.records ++ [(.table, { time := s.stamp, code := .table .revoked, cred := some e.cred })] := by
  have hmail : (revokeNow e w s).1.mail.records = (removeEntry e s).mail.records
      ++ [(.table, { time := (removeEntry e s).stamp, code := .table .revoked, cred := some e.cred })] := by
    rw [revokeNow_state]
    rfl
  rw [hmail, removeEntry_mail, removeEntry_stamp]

theorem revokeNow_withdrawals {w : Bool} :
    (revokeNow e w s).1.mail.withdrawals = s.mail.withdrawals ++ withdrawalsOf w e.claim := by
  have hmail : (revokeNow e w s).1.mail.withdrawals = (removeEntry e s).mail.withdrawals ++ withdrawalsOf w e.claim := by
    rw [revokeNow_state]
    rfl
  rw [hmail, removeEntry_mail]

theorem askWalk_idle {q : WalkRequest} (h : s.table.walk = none) :
    askWalk q s = { s with table := { s.table with walk := some (startOf s q) } } := by
  simp only [askWalk, h]
  rfl

theorem askWalk_waits {q : WalkRequest} (h : s.table.walk ≠ none) :
    askWalk q s = { s with table := { s.table with waiting := some q } } := by
  unfold askWalk
  split
  · contradiction
  · rfl

theorem presentCreds_of_table (h : t.table = s.table) : presentCreds t = presentCreds s := by rw [presentCreds, h]; rfl

/-- A walk asked for by a request that was taken at the table (R20). -/
theorem askWalk_takenTurn {q : WalkRequest} :
    (s.table.walk = none → askWalk q (takenTurn p s)
        = { takenTurn p s with table := { s.table with walk := some (startOf s q) } })
      ∧ (s.table.walk ≠ none → askWalk q (takenTurn p s)
        = { takenTurn p s with table := { s.table with waiting := some q } }) := by
  have hstart : startOf (takenTurn p s) q = startOf s q := by
    cases q
    · simp only [startOf, presentCreds_of_table takenTurn_table]
    · rfl
  refine ⟨fun h => ?_, fun h => ?_⟩
  · rw [askWalk_idle (by rw [takenTurn_table]; exact h), takenTurn_table, hstart]
  · rw [askWalk_waits (by rw [takenTurn_table]; exact h), takenTurn_table]

section RevokeCheck

variable {f : Bool} (he : s.entry c = some e) (hstands : e.inRemoval = false)
include he hstands

theorem revokeCheck_rights (h : p = .reception ∧ (e.issuer = .security ∨ f = true)) :
    revokeCheck s p c f = .error .rights := by
  simp only [revokeCheck, standingEntry_eq_some he hstands]
  exact if_pos h

variable (hrights : ¬ (p = .reception ∧ (e.issuer = .security ∨ f = true)))
include hrights

theorem revokeCheck_standing :
    revokeCheck s p c f = if e.refs > 0 ∧ f = false then .error .sponsorInUse else .ok e := by
  simp only [revokeCheck, standingEntry_eq_some he hstands]
  exact if_neg hrights

end RevokeCheck

theorem purge_refused {cl is : Byte} (h : cl.toNat = 0 ∨ 7 < cl.toNat ∨ is.toNat = 0 ∨ 3 < is.toNat) :
    purge p cl is s = answer p .badField [] s := if_pos h

theorem purge_asked {cl is : Byte} (h : ¬ (cl.toNat = 0 ∨ 7 < cl.toNat ∨ is.toNat = 0 ∨ 3 < is.toNat)) :
    purge p cl is s = askWalk (.purge (cl.extractLsb' 0 3) (is.extractLsb' 0 2)) s := if_neg h

/-- Settles O33: the checks of a revoke, the removal of an entry without refs, and the walks asked for. -/
theorem revokeAndPurge : Obligations.RevokeAndPurge := by
  intro p s
  refine ⟨fun c w f h => ⟨_, exec_revokeEntry h, fun hnone => ?_, fun e he hstands => ⟨fun hrights => ?_,
    fun hrights => ⟨fun hrefs hforce => ?_, fun hrefs hforce => ?_, fun hrefs => ?_⟩⟩⟩, fun cl is h => ⟨fun hbad => ?_,
    fun hcl hcl' his his' => ?_⟩⟩
  · simp only [revokeCheck, standingEntry_eq_none hnone]
  · rw [revokeCheck_rights he hstands hrights]
  · rw [revokeCheck_standing he hstands hrights, if_pos ⟨hrefs, hforce⟩]
  · rw [revokeCheck_standing he hstands hrights, if_neg (by simp [hforce])]
    dsimp only
    rw [revokeDone, if_pos hrefs]
    exact askWalk_takenTurn
  · rw [revokeCheck_standing he hstands hrights, if_neg (by omega)]
    dsimp only
    rw [revokeDone, if_neg (by omega)]
    obtain ⟨-, hcred⟩ := State.entry_some he
    have hentry (d : Cred) : (answer p .ok (sentBody w (revokeNow e w (takenTurn p s)).2) (revokeNow e w (takenTurn p s)).1).entry d
        = if d = c then none
          else if e.sponsor = some d then (s.entry d).map (fun x => { x with refs := x.refs - 1 }) else s.entry d := by
      rw [answer_entry, revokeNow_entry, entry_removeEntry, hcred, takenTurn_entry]
    refine ⟨?_, ?_, fun g hg => ?_, fun d x hd hne hx => ?_, fun d hne hd => ?_, ?_, ?_, ?_, ?_⟩
    · rw [hentry, if_pos rfl]
    · change (revokeNow e w (takenTurn p s)).1.table.receptionCount = _
      rw [revokeNow_table, removeEntry_receptionCount, takenTurn_table]
    · change (revokeNow e w (takenTurn p s)).1.table.departed = _
      rw [revokeNow_table, removeEntry_departed, hg, takenTurn_table]
    · rw [hentry, if_neg hne, if_pos hd, hx]
      rfl
    · rw [hentry, if_neg hne, if_neg hd]
    · change (revokeNow e w (takenTurn p s)).1.mail.escortEnds = _
      rw [revokeNow_escortEnds, takenTurn_mail, hcred]
    · change (revokeNow e w (takenTurn p s)).1.mail.records = _
      rw [revokeNow_records, takenTurn_mail, takenTurn_stamp, hcred]
    · change (revokeNow e w (takenTurn p s)).1.mail.withdrawals = _
      rw [revokeNow_withdrawals, takenTurn_mail]
      rfl
    · exact answer_reply.trans (by rw [revokeNow_sent, sentBody_withdrawIf] <;> rfl)
  · rw [exec_purge h, purge_refused hbad]
  · rw [exec_purge h, purge_asked (by omega)]
    exact ⟨fun hidle => congrArg _ (askWalk_takenTurn.1 hidle), fun hbusy => congrArg _ (askWalk_takenTurn.2 hbusy)⟩

/-! ## The end of a walk -/

theorem endWalk_ended (hwaiting : t.table.waiting = s.table.waiting) : WalkEnded s (endWalk t) := by
  refine ⟨fun h => ?_, fun q h => ?_⟩
  · rw [endWalk, hwaiting, h]
    exact ⟨rfl, hwaiting.trans h⟩
  · rw [endWalk, hwaiting, h]
    refine ⟨?_, rfl⟩
    cases q <;> rfl

theorem endWalk_entries : (endWalk s).table.entries = s.table.entries := by
  unfold endWalk
  split <;> rfl

@[simp] theorem endWalk_entry : (endWalk s).entry d = s.entry d := entry_of_entries endWalk_entries d

@[simp] theorem endWalk_mail : (endWalk s).mail = s.mail := by
  unfold endWalk
  split <;> rfl

theorem endWalk_arbiter : (endWalk s).arbiter = s.arbiter := (endWalk_keeps (b := .arbiter) (by simp)).mpr rfl

theorem endWalk_idle (h : s.table.waiting = none) : (endWalk s).table = { s.table with walk := none } := by
  rw [endWalk, h]
  rfl

@[simp] theorem setWalk_entry {k : Option Walk} : (setWalk k s).entry d = s.entry d := rfl

@[simp] theorem tellEscort_entry {x : EscortEnd} : (tellEscort x s).entry d = s.entry d := rfl

@[simp] theorem tableRecord_entry {k : TableCode} {x : Option Cred} {q : Detail} :
    (tableRecord k x q s).entry d = s.entry d := rfl

@[simp] theorem served_entry {q : Claimant} : (served q s).entry d = s.entry d := rfl

theorem walkerStep_turn {f : State → State} (h : hasTurn s .walker = true) : walkerStep f s = served .walker (f s) := if_pos h

/-! ## The steps of a purge -/

section PurgeSteps

variable {cl : ClassSet} {is : IssuerSet} {todo : List Cred} {n : Nat}

theorem exec_purgeFirstPassStep (h : WalkerTurn s) (hwalk : s.table.walk = some (.purge cl is .first todo n))
    (hc : c ∈ todo) : exec (.purgeFirstPassStep c) s
      = .next (served .walker (settlePurge (purgeFirstVisit cl is todo n c s))) := by
  refine (running_of_not_resetHeld h.1 _).trans ?_
  simp only [hwalk, List.ne_nil_of_mem hc, hc, if_false, if_true, walkerStep_turn h.2]

theorem exec_purgeFirstPassStep_done (h : WalkerTurn s) (hwalk : s.table.walk = some (.purge cl is .first [] n)) :
    exec (.purgeFirstPassStep c) s = .next (served .walker (settlePurge s)) := by
  refine (running_of_not_resetHeld h.1 _).trans ?_
  simp only [hwalk, if_true, walkerStep_turn h.2]

theorem exec_purgeSecondPassStep (h : WalkerTurn s) (hwalk : s.table.walk = some (.purge cl is .second todo n))
    (hc : c ∈ todo) : exec (.purgeSecondPassStep c) s
      = .next (served .walker (settlePurge (purgeSecondVisit cl is todo n c s))) := by
  refine (running_of_not_resetHeld h.1 _).trans ?_
  simp only [hwalk, List.ne_nil_of_mem hc, hc, if_false, if_true, walkerStep_turn h.2]

theorem exec_purgeSecondPassStep_done (h : WalkerTurn s) (hwalk : s.table.walk = some (.purge cl is .second [] n)) :
    exec (.purgeSecondPassStep c) s = .next (served .walker (settlePurge s)) := by
  refine (running_of_not_resetHeld h.1 _).trans ?_
  simp only [hwalk, if_true, walkerStep_turn h.2]

theorem exec_purgeFinalStep (h : WalkerTurn s) (hwalk : s.table.walk = some (.purge cl is .final todo n)) :
    exec .purgeFinalStep s = .next (served .walker (purgeEnd n s)) := by
  refine (running_of_not_resetHeld h.1 _).trans ?_
  simp only [hwalk, walkerStep_turn h.2]

theorem settlePurge_first (h : s.table.walk = some (.purge cl is .first todo n)) : settlePurge s
    = setWalk (some (if todo = [] then .purge cl is (if presentCreds s = [] then .final else .second) (presentCreds s) n
        else .purge cl is .first todo n)) s := by
  cases todo with
  | nil => simp only [settlePurge, h, if_true]
  | cons x xs =>
    simp only [settlePurge, h, List.cons_ne_nil, if_false]
    rw [setWalk, State.onTable, ← h]

theorem settlePurge_second (h : s.table.walk = some (.purge cl is .second todo n)) : settlePurge s
    = setWalk (some (if todo = [] then .purge cl is .final [] n else .purge cl is .second todo n)) s := by
  cases todo with
  | nil => simp only [settlePurge, h, if_true]
  | cons x xs =>
    simp only [settlePurge, h, List.cons_ne_nil, if_false]
    rw [setWalk, State.onTable, ← h]

/-- What the first pass's visit makes of the table's entries: a match with refs 0 goes, another match is marked (R18). -/
def firstVisited (cl : ClassSet) (is : IssuerSet) (c : Cred) (s : State) : State :=
  match s.entry c with
  | some e =>
    if matchesPurge cl is e then
      if e.refs = 0 then removeEntry e s else onEntry c (fun x => { x with inRemoval := true }) s
    else s
  | none => s

theorem firstVisited_entries_none (h : s.entry c = none) : firstVisited cl is c s = s := by simp only [firstVisited, h]

theorem firstVisited_other (he : s.entry c = some e) (hno : matchesPurge cl is e = false) :
    firstVisited cl is c s = s := by
  simp only [firstVisited, he, hno]
  rfl

theorem firstVisited_removed (he : s.entry c = some e) (hmatch : matchesPurge cl is e = true) (hrefs : e.refs = 0) :
    firstVisited cl is c s = removeEntry e s := by
  simp only [firstVisited, he, hmatch, hrefs, if_true]

theorem firstVisited_marked (he : s.entry c = some e) (hmatch : matchesPurge cl is e = true) (hrefs : e.refs ≠ 0) :
    firstVisited cl is c s = onEntry c (fun x => { x with inRemoval := true }) s := by
  simp only [firstVisited, he, hmatch, hrefs, if_true, if_false]

/-- The first pass's visit: its effect on the entries, and its count of removals (R18). -/
theorem purgeFirstVisit_eq : purgeFirstVisit cl is todo n c s
    = setWalk (some (.purge cl is .first (todo.filter (· != c)) (countAfter s (firstVisited cl is c s) c n)))
      (firstVisited cl is c s) := by
  unfold purgeFirstVisit
  dsimp only
  cases he : s.entry c with
  | none =>
    rw [firstVisited_entries_none he]
    simp [countAfter, he]
  | some e =>
    obtain ⟨-, hcred⟩ := State.entry_some he
    dsimp only
    cases hmatch : matchesPurge cl is e with
    | false =>
      rw [firstVisited_other he hmatch]
      simp [countAfter, he]
    | true =>
      by_cases hrefs : e.refs = 0
      · have hgone : (removeEntry e s).entry c = none := by rw [entry_removeEntry, if_pos hcred.symm]
        rw [firstVisited_removed he hmatch hrefs, if_pos rfl, if_pos hrefs]
        simp [countAfter, he, hgone]
      · have hstays : (onEntry c (fun x => { x with inRemoval := true }) s).entry c = some { e with inRemoval := true } := by
          rw [entry_onEntry (f := fun x => { x with inRemoval := true }) (fun _ => rfl), if_pos rfl, he]
          rfl
        rw [firstVisited_marked he hmatch hrefs, if_pos rfl, if_neg hrefs]
        simp [countAfter, he, hstays]

theorem firstVisited_arbiter : (firstVisited cl is c s).arbiter = s.arbiter := by
  unfold firstVisited
  repeat' split
  · exact removeEntry_arbiter
  all_goals rfl

/-- A referring entry handled: its sponsor cleared, itself suspended, its WAIT ended, and one ref fewer at the sponsor (R15,
R18). -/
theorem handleReferring_entries {x : Entry} (he : s.entry e.cred = some e) (hne : d ≠ e.cred) (hx : s.entry d = some x) :
    (handleReferring e d s).entry e.cred
        = some { e with sponsor := none, suspended := true, claim := if e.claim = some .wait then none else e.claim }
      ∧ (handleReferring e d s).entry d = some { x with refs := x.refs - 1 } := by
  have hset (k : Cred) := entry_onEntry (s := s) (c := e.cred) (d := k) (f := fun x =>
    { x with sponsor := none, suspended := true, claim := if x.claim = some .wait then none else x.claim }) (fun _ => rfl)
  have htold {b : Prop} [Decidable b] {v : State} {q : EscortEnd} {k : Cred} :
      (if b then tellEscort q v else v).entry k = v.entry k := by split <;> rfl
  unfold handleReferring
  dsimp only
  rw [htold, htold, entry_dropRef, entry_dropRef, hset, hset, if_neg hne.symm, if_pos rfl, if_pos rfl, if_neg hne, he, hx]
  exact ⟨rfl, rfl⟩

theorem handleReferring_mail : (handleReferring e d s).mail = { s.mail with
    escortEnds := s.mail.escortEnds ++ (if e.claim = some .wait then [.wait e.cred] else []) } := by
  unfold handleReferring
  dsimp only
  split
  · rfl
  · rw [List.append_nil]
    rfl

theorem handleReferring_walk : (handleReferring e d s).table.walk = s.table.walk := by
  unfold handleReferring
  dsimp only
  split <;> rfl

theorem handleReferring_arbiter : (handleReferring e d s).arbiter = s.arbiter :=
  (handleReferring_keeps (b := .arbiter) (by simp)).mpr rfl

theorem purgeSecondVisit_walk : (purgeSecondVisit cl is todo n c s).table.walk
    = some (.purge cl is .second (todo.filter (· != c)) n) := by
  unfold purgeSecondVisit
  dsimp only
  repeat' split
  · exact handleReferring_walk
  all_goals rfl

theorem purgeSecondVisit_arbiter : (purgeSecondVisit cl is todo n c s).arbiter = s.arbiter :=
  (purgeSecondVisit_keeps (b := .arbiter) (by simp)).mpr rfl

theorem purgeSecondVisit_referring {x : Entry} (he : s.entry c = some e) (hd : e.sponsor = some d) (hx : s.entry d = some x)
    (hmarked : x.inRemoval = true) : purgeSecondVisit cl is todo n c s
      = handleReferring e d (setWalk (some (.purge cl is .second (todo.filter (· != c)) n)) s) := by
  simp only [purgeSecondVisit, setWalk_entry, he, hd, hx, hmarked, if_true]

theorem purgeSecondVisit_other (h : ∀ e, s.entry c = some e → ∀ d, e.sponsor = some d → ∀ x, s.entry d = some x →
    x.inRemoval = false) : purgeSecondVisit cl is todo n c s
      = setWalk (some (.purge cl is .second (todo.filter (· != c)) n)) s := by
  cases he : s.entry c with
  | none => simp only [purgeSecondVisit, setWalk_entry, he]
  | some e =>
    cases hd : e.sponsor with
    | none => simp only [purgeSecondVisit, setWalk_entry, he, hd]
    | some d =>
      cases hx : s.entry d with
      | none => simp only [purgeSecondVisit, setWalk_entry, he, hd, hx]
      | some x =>
        have hstands : x.inRemoval = false := h e he d hd x hx
        simp only [purgeSecondVisit, setWalk_entry, he, hd, hx, hstands]
        rfl

theorem entry_removeAll_none {es : List Entry} (h : s.entry c = none) : (removeAll es s).entry c = none := by
  induction es generalizing s with
  | nil => exact h
  | cons e r ih =>
    refine ih ?_
    rw [entry_removeEntry, h]
    simp

theorem entry_removeAll {es : List Entry} (he : e ∈ es) : (removeAll es s).entry e.cred = none := by
  induction es generalizing s with
  | nil => simp at he
  | cons x r ih =>
    rcases List.mem_cons.mp he with rfl | he
    · exact entry_removeAll_none (es := r) (by rw [entry_removeEntry, if_pos rfl])
    · exact ih he

theorem removeAll_waiting {es : List Entry} : (removeAll es s).table.waiting = s.table.waiting := by
  induction es generalizing s with
  | nil => rfl
  | cons e r ih => rw [removeAll, ih, removeEntry_waiting]

theorem removeAll_records {es : List Entry} : (removeAll es s).mail.records = s.mail.records :=
  (removeAll_keeps (b := .records) (by simp)).mpr rfl

theorem removeAll_stamp {es : List Entry} : (removeAll es s).stamp = s.stamp := by
  have hclock : (removeAll es s).clock = s.clock := (removeAll_keeps (b := .clock) (by simp)).mpr rfl
  simp [State.stamp, hclock]

theorem removeAll_arbiter {es : List Entry} : (removeAll es s).arbiter = s.arbiter :=
  (removeAll_keeps (b := .arbiter) (by simp)).mpr rfl

end PurgeSteps

/-- Settles O34: a visit of the first pass by what it finds, one of the second by its sponsor's mark, a pass that has visited
every entry, and the final step. -/
theorem purgeSteps : Obligations.PurgeSteps := by
  intro s h
  refine ⟨fun cl is todo n c hwalk hc => ⟨_, exec_purgeFirstPassStep h hwalk hc, ?_⟩, fun cl is n c hwalk => ⟨_,
    exec_purgeFirstPassStep_done h hwalk, by rw [settlePurge_first hwalk]; rfl⟩, fun cl is todo n c hwalk hc => ⟨_,
    exec_purgeSecondPassStep h hwalk hc, ?_⟩, fun cl is n c hwalk => ⟨_, exec_purgeSecondPassStep_done h hwalk, rfl,
    by rw [settlePurge_second hwalk]; rfl⟩, fun cl is todo n c hwalk => ⟨_, exec_purgeFinalStep h hwalk, rfl, ?_⟩⟩
  · let v := firstVisited cl is c s
    have hvisit : settlePurge (purgeFirstVisit cl is todo n c s) = setWalk (some (if todo.filter (· != c) = [] then
        .purge cl is (if presentCreds v = [] then .final else .second) (presentCreds v) (countAfter s v c n)
        else .purge cl is .first (todo.filter (· != c)) (countAfter s v c n))) v := by
      rw [purgeFirstVisit_eq, settlePurge_first (n := countAfter s v c n) rfl]
      rfl
    rw [hvisit]
    refine ⟨rfl, rfl, fun e he hcl his hrefs => ?_, fun e he hcl his hrefs => ?_, fun e he hno => ?_, fun hnone => ?_⟩
    · have hv : v = removeEntry e s := firstVisited_removed he (by simp [matchesPurge, hcl, his]) hrefs
      have hgone : v.entry c = none := by rw [hv, entry_removeEntry, if_pos (State.entry_some he).2.symm]
      refine ⟨hgone, fun hmore => ?_⟩
      have hcount : countAfter s v c n = n + 1 := by simp [countAfter, he, hgone]
      change some (if todo.filter (· != c) = [] then _ else _) = _
      rw [if_neg hmore, hcount]
    · have hv : v = onEntry c (fun x => { x with inRemoval := true }) s :=
        firstVisited_marked he (by simp [matchesPurge, hcl, his]) (by omega)
      have hentry (d : Cred) := entry_onEntry (s := s) (c := c) (d := d) (f := fun x => { x with inRemoval := true })
        (fun _ => rfl)
      refine ⟨?_, fun d hd => ?_⟩
      · rw [served_entry, setWalk_entry, hv, hentry, if_pos rfl, he]
        rfl
      · rw [served_entry, setWalk_entry, hv, hentry, if_neg hd]
    · have hv : v = s := firstVisited_other he hno
      rw [hv]
      rfl
    · have hv : v = s := firstVisited_entries_none hnone
      rw [hv]
      rfl
  · rw [settlePurge_second purgeSecondVisit_walk]
    refine ⟨rfl, rfl, fun e d x he hd hne hx hmarked => ?_, fun hother => ?_⟩
    · obtain ⟨-, hcred⟩ := State.entry_some he
      rw [purgeSecondVisit_referring he hd hx hmarked]
      subst hcred
      obtain ⟨hself, hsponsor⟩ := handleReferring_entries
        (s := setWalk (some (.purge cl is .second (todo.filter (· != e.cred)) n)) s) he hne hx
      refine ⟨hself, hsponsor, ?_⟩
      change (handleReferring e d _).mail.escortEnds = _
      rw [handleReferring_mail]
      rfl
    · rw [purgeSecondVisit_other hother]
      rfl
  · refine ⟨?_, fun e he hmarked => ?_, ?_, ?_⟩
    · exact endWalk_ended (t := answer .security .ok _ (tableRecord .purged none _ (removeAll _ s))) removeAll_waiting
    · obtain ⟨hmem, hcred⟩ := State.entry_some he
      have hgone : (removeAll (s.table.entries.filter (·.inRemoval)) s).entry e.cred = none :=
        entry_removeAll (List.mem_filter.mpr ⟨hmem, hmarked⟩)
      rw [served_entry, purgeEnd, endWalk_entry, answer_entry, tableRecord_entry, ← hcred]
      exact hgone
    · change (endWalk _).mail.replies.security = _
      rw [endWalk_mail]
      rfl
    · change (endWalk _).mail.records = _
      rw [endWalk_mail]
      have hmail (v : State) (k : Nat) : (tableRecord .purged none (countDetail k) v).mail.records
          = v.mail.records ++ [(.table, { time := v.stamp, code := .table .purged, detail := countDetail k })] := rfl
      change (tableRecord .purged none (countDetail _) (removeAll _ s)).mail.records = _
      rw [hmail, removeAll_records, removeAll_stamp]
      rfl

end Sys2Proof.Machine
end

section
/-!
PROOFS. The other events at the Permit Table: the steps of a forced revoke (R15, R20), the sweep (R21), amnesty (R22),
postings (R23, R24) and escort claim releases (R7).
-/
namespace Sys2Proof.Machine

variable {s t u : State} {c d r : Cred} {e : Entry} {w sent : Bool} {todo : List Cred} {n : Nat}

/-! ## The steps of a forced revoke -/

theorem exec_forcedRevokeStart (h : WalkerTurn s) (hwalk : s.table.walk = some (.forcedRevoke c w false todo n sent)) :
    exec .forcedRevokeStart s = .next (served .walker (forcedStart c w s)) := by
  refine (running_of_not_resetHeld h.1 _).trans ?_
  simp only [hwalk, walkerStep_turn h.2]

theorem exec_forcedRevokeStep (h : WalkerTurn s) (hwalk : s.table.walk = some (.forcedRevoke r w true todo n sent))
    (hc : c ∈ todo) : exec (.forcedRevokeStep c) s = .next (served .walker (forcedVisit r w todo n sent c s)) := by
  refine (running_of_not_resetHeld h.1 _).trans ?_
  simp only [hwalk, hc, if_true, walkerStep_turn h.2]

theorem exec_forcedRevokeEnd (h : WalkerTurn s) (hwalk : s.table.walk = some (.forcedRevoke r w true [] n sent)) :
    exec .forcedRevokeEnd s = .next (served .walker (forcedEnd r w n sent s)) := by
  refine (running_of_not_resetHeld h.1 _).trans ?_
  simp only [hwalk, walkerStep_turn h.2]

theorem forcedStart_absent (h : ∀ e, s.entry c = some e → e.inRemoval = true) :
    forcedStart c w s = endWalk (answer .security .noEntry [] s) := by
  simp only [forcedStart, standingEntry_eq_none h]

theorem forcedStart_unreferred (he : s.entry c = some e) (hstands : e.inRemoval = false) (hrefs : e.refs = 0) :
    forcedStart c w s
      = endWalk (answer .security .ok (sentBody w (revokeNow e w s).2) (revokeNow e w s).1) := by
  simp only [forcedStart, standingEntry_eq_some he hstands, hrefs, if_true]

/-- A sponsor with refs is marked, and its credit ends (R15). -/
def sponsorMarked (c : Cred) (s : State) : State :=
  tellEscort (.credit c) (onEntry c (fun x => { x with inRemoval := true }) s)

theorem sponsorMarked_entry : (sponsorMarked c s).entry d
    = if d = c then (s.entry d).map (fun x => { x with inRemoval := true }) else s.entry d := by
  rw [sponsorMarked, tellEscort_entry, entry_onEntry (f := fun x => { x with inRemoval := true }) (fun _ => rfl)]

theorem forcedStart_referred (he : s.entry c = some e) (hstands : e.inRemoval = false) (hrefs : 0 < e.refs) :
    forcedStart c w s = setWalk (some (.forcedRevoke c w true (presentCreds s) 0
          (match w, e.claim with | true, some (.window _) => true | _, _ => false)))
        ((sponsorMarked c s).onMail (fun m => { m with withdrawals := m.withdrawals ++ withdrawalsOf w e.claim })) := by
  have hcreds : presentCreds (sponsorMarked c s) = presentCreds s := by
    change (mapEntry c _ s.table.entries).map (·.cred) = s.table.entries.map (·.cred)
    rw [mapEntry, List.map_map]
    exact List.map_congr_left fun x _ => by simp only [Function.comp_apply]; split <;> rfl
  have hmarked : forcedStart c w s = setWalk (some (.forcedRevoke c w true (presentCreds (sponsorMarked c s)) 0
      (withdrawIf w e.claim (sponsorMarked c s)).2)) (withdrawIf w e.claim (sponsorMarked c s)).1 := by
    simp only [forcedStart, standingEntry_eq_some he hstands, Nat.ne_of_gt hrefs, if_false]
    rfl
  rw [hmarked, hcreds, withdrawIf_state, withdrawIf_sent] <;> rfl

theorem forcedVisit_referring (he : s.entry c = some e) (hr : e.sponsor = some r) : forcedVisit r w todo n sent c s
    = setWalk (some (.forcedRevoke r w true (todo.filter (· != c)) (n + 1) sent)) (handleReferring e r s) := by
  simp only [forcedVisit, he, hr, if_true]

theorem forcedVisit_other (h : ∀ e, s.entry c = some e → e.sponsor ≠ some r) : forcedVisit r w todo n sent c s
    = setWalk (some (.forcedRevoke r w true (todo.filter (· != c)) n sent)) s := by
  cases he : s.entry c with
  | none => simp only [forcedVisit, he]
  | some e => simp only [forcedVisit, he, h e he, if_false]

/-- The sponsor goes at the end of a forced revoke, with its record (R15). -/
def sponsorRemoved (r : Cred) (s : State) : State :=
  match s.entry r with
  | some e => tableRecord .revoked (some r) .none (removeEntry e s)
  | none => s

theorem sponsorRemoved_entry : (sponsorRemoved r s).entry r = none := by
  cases he : s.entry r with
  | none => simp only [sponsorRemoved, he]
  | some e => simp only [sponsorRemoved, he, tableRecord_entry, entry_removeEntry, (State.entry_some he).2, if_true]

theorem sponsorRemoved_waiting : (sponsorRemoved r s).table.waiting = s.table.waiting := by
  unfold sponsorRemoved
  split
  · exact removeEntry_waiting
  · rfl

/-- Settles O35: the three steps, by the entry each finds. -/
theorem forcedRevokeSteps : Obligations.ForcedRevokeSteps := by
  intro s h
  refine ⟨fun c w todo n sent hwalk => ⟨_, exec_forcedRevokeStart h hwalk, rfl, fun habsent => ?_,
    fun e he hstands hrefs => ?_, fun e he hstands hrefs => ?_⟩, fun r w todo n sent c hwalk hc => ⟨_,
    exec_forcedRevokeStep h hwalk hc, rfl, fun e x he hr hne hx => ?_, fun hother => ?_⟩, fun r w n sent hwalk => ⟨_,
    exec_forcedRevokeEnd h hwalk, rfl, ?_, ?_, ?_⟩⟩
  · rw [forcedStart_absent habsent]
    refine ⟨endWalk_entries, endWalk_ended (t := answer .security .noEntry [] s) rfl, fun hwaiting => ?_, ?_⟩
    · exact endWalk_idle (s := answer .security .noEntry [] s) hwaiting
    · change (endWalk _).mail.replies.security = _
      rw [endWalk_mail]
      rfl
  · rw [forcedStart_unreferred he hstands hrefs]
    refine ⟨?_, endWalk_ended (t := answer .security .ok _ (revokeNow e w s).1) ?_⟩
    · rw [served_entry, endWalk_entry, answer_entry, revokeNow_entry, entry_removeEntry, (State.entry_some he).2, if_pos rfl]
    · change (revokeNow e w s).1.table.waiting = _
      rw [revokeNow_table, removeEntry_waiting]
  · rw [forcedStart_referred he hstands hrefs]
    refine ⟨?_, fun d hd => ?_, rfl, rfl, rfl⟩
    · change (sponsorMarked c s).entry c = _
      rw [sponsorMarked_entry, if_pos rfl, he]
      rfl
    · change (sponsorMarked c s).entry d = _
      rw [sponsorMarked_entry, if_neg hd]
  · obtain ⟨-, hcred⟩ := State.entry_some he
    rw [forcedVisit_referring he hr]
    subst hcred
    obtain ⟨hself, hsponsor⟩ := handleReferring_entries he hne hx
    refine ⟨hself, hsponsor, ?_, rfl⟩
    change (handleReferring e r s).mail.escortEnds = _
    rw [handleReferring_mail]
  · rw [forcedVisit_other hother]
    rfl
  · change (endWalk (answer .security .ok _ (sponsorRemoved r s))).entry r = none
    rw [endWalk_entry, answer_entry, sponsorRemoved_entry]
  · exact endWalk_ended (t := answer .security .ok _ (sponsorRemoved r s)) sponsorRemoved_waiting
  · change (endWalk _).mail.replies.security = _
    rw [endWalk_mail]
    change some (replyBytes .ok (b1 n ++ sentBody w sent)) = _
    rcases w with _ | _ <;> rcases sent with _ | _ <;> rfl

/-! ## The sweep -/

theorem exec_sweepStep (hrun : s.resetHeld = false) (hturn : hasTurn s .walker = true)
    (hwalk : s.table.walk = some (.sweep todo n)) (hc : c ∈ todo) :
    exec (.sweepStep c) s = .next (served .walker (settleSweep (sweepVisit todo n c s))) := by
  refine (running_of_not_resetHeld hrun _).trans ?_
  simp only [hwalk, List.ne_nil_of_mem hc, hc, if_false, if_true, walkerStep_turn hturn]

theorem exec_sweepStep_done (hrun : s.resetHeld = false) (hturn : hasTurn s .walker = true)
    (hwalk : s.table.walk = some (.sweep [] n)) : exec (.sweepStep c) s = .next (served .walker (settleSweep s)) := by
  refine (running_of_not_resetHeld hrun _).trans ?_
  simp only [hwalk, if_true, walkerStep_turn hturn]

/-- The record of a sweep that ends: made when it removed any entry (R21). -/
def sweepRecord (n : Nat) (s : State) : State := if n = 0 then s else tableRecord .swept none (countDetail n) s

theorem sweepRecord_table : (sweepRecord n s).table = s.table := by
  unfold sweepRecord
  split <;> rfl

theorem sweepRecord_records : (sweepRecord n s).mail.records = s.mail.records ++ (if n = 0 then [] else
    [(.table, { time := s.stamp, code := .table .swept, detail := .items {} (b2 n) })]) := by
  unfold sweepRecord
  split
  · exact (List.append_nil _).symm
  · rfl

theorem settleSweep_done (h : s.table.walk = some (.sweep [] n)) : settleSweep s = endWalk (sweepRecord n s) := by
  simp only [settleSweep, h]
  rfl

theorem settleSweep_more (h : s.table.walk = some (.sweep todo n)) (hmore : todo ≠ []) : settleSweep s = s := by
  cases todo with
  | nil => contradiction
  | cons x xs => simp only [settleSweep, h]

theorem settleSweep_entries (h : s.table.walk = some (.sweep todo n)) :
    (settleSweep s).table.entries = s.table.entries := by
  by_cases hdone : todo = []
  · subst hdone
    rw [settleSweep_done h, endWalk_entries, sweepRecord_table]
  · rw [settleSweep_more h hdone]

/-- What the sweep's visit makes of the table's entries (R21). -/
def swept (c : Cred) (s : State) : State :=
  match s.entry c with
  | some e => if sweepable s.clock.secs e then removeEntry e s else s
  | none => s

theorem swept_removed (he : s.entry c = some e) (hsweep : sweepable s.clock.secs e = true) :
    swept c s = removeEntry e s := by
  simp only [swept, he, hsweep, if_true]

theorem swept_kept (he : s.entry c = some e) (hkeep : sweepable s.clock.secs e = false) : swept c s = s := by
  simp only [swept, he, hkeep]
  rfl

theorem swept_cases : swept c s = s ∨ ∃ e, s.entry c = some e ∧ swept c s = removeEntry e s := by
  cases he : s.entry c with
  | none => exact .inl (by simp only [swept, he])
  | some e =>
    cases hsweep : sweepable s.clock.secs e with
    | false => exact .inl (swept_kept he hsweep)
    | true => exact .inr ⟨e, rfl, swept_removed he hsweep⟩

theorem swept_waiting : (swept c s).table.waiting = s.table.waiting := by
  rcases swept_cases (s := s) (c := c) with h | ⟨e, -, h⟩
  · rw [h]
  · rw [h, removeEntry_waiting]

theorem swept_records : (swept c s).mail.records = s.mail.records := by
  rcases swept_cases (s := s) (c := c) with h | ⟨e, -, h⟩
  · rw [h]
  · rw [h, removeEntry_mail]

theorem swept_stamp : (swept c s).stamp = s.stamp := by
  rcases swept_cases (s := s) (c := c) with h | ⟨e, -, h⟩
  · rw [h]
  · rw [h, removeEntry_stamp]

/-- The sweep's visit: its effect on the entries, and its count of removals (R21). -/
theorem sweepVisit_eq : sweepVisit todo n c s
    = setWalk (some (.sweep (todo.filter (· != c)) (countAfter s (swept c s) c n))) (swept c s) := by
  cases he : s.entry c with
  | none => simp [sweepVisit, swept, countAfter, he]
  | some e =>
    cases hsweep : sweepable s.clock.secs e with
    | false =>
      rw [swept_kept he hsweep]
      simp [sweepVisit, countAfter, he, hsweep]
    | true =>
      have hgone : (removeEntry e s).entry c = none := by rw [entry_removeEntry, if_pos (State.entry_some he).2.symm]
      rw [swept_removed he hsweep]
      simp [sweepVisit, countAfter, he, hsweep, hgone]

theorem countAfter_of_entries {v : State} (h : u.table.entries = v.table.entries) :
    countAfter s u c n = countAfter s v c n := by
  rw [countAfter, countAfter, entry_of_entries h]

theorem sweepable_of {v now : Secs} (hissuer : e.issuer = .reception) (hv : e.validUntil = some v)
    (hpast : v.toNat < now.toNat) (hclaim : e.claim = none) (hrefs : e.refs = 0) : sweepable now e = true := by
  simp [sweepable, hissuer, hv, hpast, hclaim, hrefs]

theorem not_sweepable_of {now : Secs} (h : e.issuer = .security ∨ e.validUntil = none ∨ e.claim ≠ none ∨ e.refs ≠ 0
    ∨ (∃ v, e.validUntil = some v ∧ now.toNat ≤ v.toNat)) : sweepable now e = false := by
  rcases h with h | h | h | h | ⟨v, hv, hlater⟩
  · simp [sweepable, h]
  · simp [sweepable, h]
  · simp [sweepable, Option.isNone_eq_false_iff.mpr (Option.isSome_iff_ne_none.mpr h)]
  · simp [sweepable, h]
  · simp [sweepable, hv, Nat.not_lt.mpr hlater]

/-! ## Amnesty, postings and escort claim releases -/

theorem exec_passagePosting {x : Posting} {rest : List FirstOp} (hrun : s.resetHeld = false)
    (h : s.arbiter.first = .posting x :: rest) : exec .passagePosting s = .next (post x (popFirst s)) := by
  refine (running_of_not_resetHeld hrun _).trans ?_
  simp only [firstTurn, h, List.head?_cons]

theorem exec_escortClaimRelease {v : Cred} {rest : List FirstOp} (hrun : s.resetHeld = false)
    (h : s.arbiter.first = .claimRelease v :: rest) : exec .escortClaimRelease s
      = .next (onEntry v (fun e => { e with claim := if e.claim = some .wait then none else e.claim }) (popFirst s)) := by
  refine (running_of_not_resetHeld hrun _).trans ?_
  simp only [firstTurn, h, List.head?_cons]

theorem popFirst_arbiter {q : FirstOp} {rest : List FirstOp} (h : s.arbiter.first = q :: rest) :
    (popFirst s).arbiter = { s.arbiter with first := rest } := by
  simp only [popFirst, State.onArbiter, h, List.tail_cons]

theorem postEntry_cred {x : Posting} {now : Stamp} : (postEntry x now e).cred = e.cred := by
  unfold postEntry
  split
  · rfl
  · split <;> rfl

theorem postEntry_passed {x : Posting} {now : Stamp} (hclaim : e.claim = some (.window x.tag)) (hout : x.outcome = .passed) :
    postEntry x now e = { e with
      claim := none, side := x.dir.farSide, uses := if x.dir = .entry then e.uses.map (fun n => n - 1) else e.uses
      last := some ⟨now, x.tag.lane, x.dir⟩ } := by
  rw [postEntry, if_neg (not_not_intro hclaim), if_pos hout]

theorem post_absent {x : Posting} (h : s.entry x.cred = none) : post x s = sendResult ⟨x.tag, true, none, 0⟩
    (s.onTable (fun t => { t with departed := t.departed.filter (fun d => d.tag != x.tag) })) := by
  simp only [post, h]

theorem post_present {x : Posting} (h : s.entry x.cred = some e) : post x s
    = sendResult ⟨x.tag, false, some e.cls, e.refs⟩ (onEntry x.cred (postEntry x s.stamp) s) := by
  simp only [post, h]

theorem post_entry {x : Posting} : (post x s).entry d
    = if d = x.cred then (s.entry d).map (postEntry x s.stamp) else s.entry d := by
  cases h : s.entry x.cred with
  | none =>
    rw [post_absent h]
    by_cases hd : d = x.cred
    · subst hd
      rw [if_pos rfl, h]
      exact h
    · rw [if_neg hd]
      rfl
  | some e =>
    rw [post_present h]
    exact entry_onEntry (fun _ => postEntry_cred) s

/-- The entry a taken posting finds (R23, R24). -/
theorem post_entry_present {x : Posting} (h : s.entry x.cred = some e) :
    (post x (popFirst s)).entry x.cred = some (postEntry x s.stamp e) := by
  have hpopped : (popFirst s).entry x.cred = some e := h
  rw [post_entry, if_pos rfl, hpopped]
  rfl

theorem post_arbiter {x : Posting} : (post x s).arbiter = s.arbiter := by
  unfold post
  split <;> rfl

/-- Settles O36: a visit of the sweep and its end, amnesty, a posting by the claim it finds, and the release of a WAIT's
claim. -/
theorem tableEvents : Obligations.TableEvents := by
  intro s hrun
  refine ⟨fun todo n c hturn hwalk hc => ⟨_, exec_sweepStep hrun hturn hwalk hc, rfl, ?_⟩, fun n c hturn hwalk => ⟨_,
    exec_sweepStep_done hrun hturn hwalk, rfl, ?_⟩, fun hdue hturn => ?_, fun x rest hfirst => ⟨_,
    exec_passagePosting hrun hfirst, post_arbiter.trans (popFirst_arbiter hfirst), fun d hd => ?_, fun e he => ⟨?_,
    fun hclaim => ?_, fun hclaim hout => ?_, fun hclaim hout hdir => ?_, fun hclaim hout hdir => ?_⟩, fun habsent => ?_⟩,
    fun v rest hfirst => ⟨_, exec_escortClaimRelease hrun hfirst, popFirst_arbiter hfirst, fun d hd => ?_,
    fun e he => ?_, fun habsent => ?_⟩⟩
  · rw [sweepVisit_eq]
    generalize hk : countAfter s (swept c s) c n = k
    let v := setWalk (some (.sweep (todo.filter (· != c)) k)) (swept c s)
    have hentries : (settleSweep v).table.entries = (swept c s).table.entries := settleSweep_entries (s := v) rfl
    have hcount : countAfter s (served .walker (settleSweep v)) c n = k := (countAfter_of_entries hentries).trans hk
    rw [hcount]
    refine ⟨fun e m he hissuer hm hpast hclaim hrefs => ?_, fun e he hkeep => ?_, fun hmore => ?_, fun hdone => ?_⟩
    · change (settleSweep v).entry c = none
      rw [entry_of_entries hentries, swept_removed he (sweepable_of hissuer hm hpast hclaim hrefs), entry_removeEntry,
        if_pos (State.entry_some he).2.symm]
    · change (settleSweep v).table.entries = _
      rw [hentries, swept_kept he (not_sweepable_of hkeep)]
    · rw [settleSweep_more (s := v) rfl hmore]
      exact ⟨rfl, swept_waiting, swept_records⟩
    · have hwalk' : v.table.walk = some (.sweep [] k) := by rw [← hdone]; rfl
      rw [settleSweep_done hwalk']
      refine ⟨endWalk_ended (t := sweepRecord k v) ?_, ?_⟩
      · rw [sweepRecord_table]
        exact swept_waiting
      · change (endWalk (sweepRecord k v)).mail.records = _
        have hstamp : v.stamp = s.stamp := swept_stamp
        have hrecords : v.mail.records = s.mail.records := swept_records
        rw [endWalk_mail, sweepRecord_records, hstamp, hrecords]
  · rw [settleSweep_done hwalk]
    refine ⟨?_, endWalk_ended (t := sweepRecord n s) (by rw [sweepRecord_table]), ?_⟩
    · change (endWalk (sweepRecord n s)).table.entries = _
      rw [endWalk_entries, sweepRecord_table]
    · change (endWalk (sweepRecord n s)).mail.records = _
      rw [endWalk_mail, sweepRecord_records]
  · refine (running_of_not_resetHeld hrun _).trans ?_
    rw [if_pos (by rw [hdue, hturn]; rfl)]
    rfl
  · rw [post_entry, if_neg hd]
    rfl
  · rw [post_present (s := popFirst s) he]
    rfl
  · exact (post_entry_present he).trans (by simp [postEntry, hclaim])
  · exact (post_entry_present he).trans (by simp [postEntry, hclaim, hout])
  · exact (post_entry_present he).trans (by rw [postEntry_passed hclaim hout, hdir]; rfl)
  · exact (post_entry_present he).trans (by rw [postEntry_passed hclaim hout, hdir]; rfl)
  · rw [post_absent (s := popFirst s) habsent]
    exact ⟨rfl, rfl⟩
  all_goals rw [entry_onEntry (f := fun e => { e with claim := if e.claim = some .wait then none else e.claim }) (fun _ => rfl)]
  · rw [if_neg hd]
    rfl
  · rw [if_pos rfl, show (popFirst s).entry v = some e from he]
    rfl
  · rw [if_pos rfl, show (popFirst s).entry v = none from habsent]
    rfl

end Sys2Proof.Machine
end

section
/-!
PROOFS. The checks of a presentation lookup and their verdict (R30, R32 to R39).
-/
namespace Sys2Proof.Machine

variable {s : State} {l : Lane} {p : Presentation} {e : Entry} {d : Direction} {m : Medium} {r : DenyReason} {mark : Bool}

/-! ## Checks 5 to 12 -/

theorem treatedSuspended_of_flag (h : e.suspended = true ∨ e.inRemoval = true) : treatedSuspended s e = true := by
  rcases h with h | h <;> simp [treatedSuspended, h]

theorem treatedSuspended_of_sponsor {c : Cred} {x : Entry} (hc : e.sponsor = some c) (hx : s.entry c = some x)
    (hgoing : x.inRemoval = true) : treatedSuspended s e = true := by
  simp [treatedSuspended, hc, hx, hgoing]

/-- Checks 10 to 12, after check 9 (R36, R37). -/
def entryCheck (s : State) (e : Entry) (d : Direction) : Option DenyReason :=
  if d = .exit then none
  else if e.uses = some 0 then some .usedUp
  else if e.responder then none
  else if s.safety.lockdown then some .lockdown
  else if governorRefuses s.occupancy.activeAction e.cls then some .governor
  else none

theorem entryCheck_exit : entryCheck s e .exit = none := if_pos rfl

theorem entryCheck_usedUp (h : e.uses = some 0) : entryCheck s e .entry = some .usedUp := by simp [entryCheck, h]

theorem entryCheck_responder (huses : e.uses ≠ some 0) (h : e.responder = true) : entryCheck s e .entry = none := by
  simp [entryCheck, huses, h]

section NoResponder

variable (huses : e.uses ≠ some 0) (hresponder : e.responder = false)
include huses hresponder

theorem entryCheck_lockdown (h : s.safety.lockdown = true) : entryCheck s e .entry = some .lockdown := by
  simp [entryCheck, huses, hresponder, h]

theorem entryCheck_governor (hopen : s.safety.lockdown = false)
    (h : governorRefuses s.occupancy.activeAction e.cls = true) : entryCheck s e .entry = some .governor := by
  simp [entryCheck, huses, hresponder, hopen, h]

end NoResponder

/-- Nothing keeps the entry from entering (R36, R37). -/
theorem entryCheck_passed (huses : e.uses ≠ some 0) (h : e.responder = true ∨ s.safety.lockdown = false
    ∧ governorRefuses s.occupancy.activeAction e.cls = false) : entryCheck s e .entry = none := by
  rcases h with h | ⟨hopen, hgov⟩
  · exact entryCheck_responder huses h
  · simp [entryCheck, huses, hopen, hgov]

section Permit

theorem permitCheck_suspended (h : treatedSuspended s e = true) :
    permitCheck s e l d (some m) = some .suspended := by
  simp [permitCheck, h]

variable (hstands : treatedSuspended s e = false)
include hstands

theorem permitCheck_media (h : hasMedium e.media m = false) : permitCheck s e l d (some m) = some .media := by
  simp [permitCheck, hstands, h]

variable (hmedium : hasMedium e.media m = true)
include hmedium

theorem permitCheck_lane (h : hasLane e.lanes l = false) :
    permitCheck s e l d (some m) = some .laneNotPermitted := by
  simp [permitCheck, hstands, hmedium, h]

variable (hlane : hasLane e.lanes l = true)
include hlane

theorem permitCheck_direction (h : e.directions.permits d = false) :
    permitCheck s e l d (some m) = some .direction := by
  simp [permitCheck, hstands, hmedium, hlane, h]

theorem permitCheck_rest (h : e.directions.permits d = true) :
    permitCheck s e l d (some m) = (validityCheck s e).or (entryCheck s e d) := by
  cases hvalid : validityCheck s e <;> simp [permitCheck, hstands, hmedium, hlane, h, hvalid, entryCheck]

end Permit

/-! ## Check 9 -/

theorem validityCheck_clockUnset (h : e.validFrom ≠ none ∨ e.validUntil ≠ none) (hunset : s.clock.set = false) :
    validityCheck s e = some .clockUnset := by
  rcases h with h | h <;> simp [validityCheck, h, hunset]

theorem validityCheck_notYet {f : Secs} (hf : e.validFrom = some f) (hset : s.clock.set = true)
    (hearly : s.clock.secs.toNat < f.toNat) : validityCheck s e = some .notYet := by
  simp [validityCheck, hf, hset, hearly]

theorem validityCheck_expired {x : Secs} (hx : e.validUntil = some x)
    (hbegun : ∀ f, e.validFrom = some f → f.toNat ≤ s.clock.secs.toNat) (hset : s.clock.set = true)
    (hpast : x.toNat < s.clock.secs.toNat) : validityCheck s e = some .expired := by
  cases hf : e.validFrom with
  | none => simp [validityCheck, hf, hx, hset, hpast]
  | some f => simp [validityCheck, hf, hx, hset, hpast, hbegun f hf]

theorem validityCheck_passed (h : e.validFrom = none ∧ e.validUntil = none ∨ s.clock.set = true
    ∧ (∀ f, e.validFrom = some f → f.toNat ≤ s.clock.secs.toNat)
    ∧ (∀ x, e.validUntil = some x → s.clock.secs.toNat ≤ x.toNat)) : validityCheck s e = none := by
  rcases h with ⟨hf, hx⟩ | ⟨hset, hbegun, hends⟩
  · simp [validityCheck, hf, hx]
  · cases hf : e.validFrom with
    | none => cases hx : e.validUntil with
      | none => simp [validityCheck, hf, hx]
      | some x => simp [validityCheck, hf, hx, hset, hends x hx]
    | some f => cases hx : e.validUntil with
      | none => simp [validityCheck, hf, hx, hset, hbegun f hf]
      | some x =>
        have hearly : ¬ s.clock.secs.toNat < f.toNat := Nat.not_lt.mpr (hbegun f hf)
        have hpast : ¬ x.toNat < s.clock.secs.toNat := Nat.not_lt.mpr (hends x hx)
        simp only [validityCheck, hf, hx, hset, hearly, hpast, decide_false]
        rfl

/-! ## Checks 13 and 14 -/

theorem passbackCheck_strict (happlies : passbackApplies e d = true) (h : e.passback = .strict) :
    passbackCheck e d = .error .passback := by
  simp [passbackCheck, happlies, h]

theorem passbackCheck_ok (h : passbackApplies e d = false ∨ e.passback ≠ .strict) :
    passbackCheck e d = .ok (passbackApplies e d && e.passback == .soft) := by
  cases happlies : passbackApplies e d with
  | false => simp [passbackCheck, happlies]
  | true =>
    cases hrule : e.passback with
    | strict => simp [happlies, hrule] at h
    | soft => simp [passbackCheck, happlies, hrule]
    | none => simp [passbackCheck, happlies, hrule]

theorem escortCheck_alone (h : needsEscort e d = false) : escortCheck s e d mark = .grant e mark := by
  simp [escortCheck, h]

section Escorted

variable {c : Cred} (hcls : e.cls = .visitor) (hc : e.sponsor = some c)
include hcls hc

theorem escortCheck_credited (h : s.hasCredit c = true) : escortCheck s e .entry mark = .grant e mark := by
  simp [escortCheck, hc, h]

variable (hcredit : s.hasCredit c = false)
include hcredit

theorem escortCheck_await (h : escortRoom s e.cred = true) : escortCheck s e .entry mark = .await e mark := by
  simp [escortCheck, needsEscort, hcls, hc, hcredit, h]

theorem escortCheck_busy (h : escortRoom s e.cred = false) :
    escortCheck s e .entry mark = .deny (some e) .escortBusy mark := by
  simp [escortCheck, needsEscort, hcls, hc, hcredit, h]

end Escorted

/-! ## The verdict -/

theorem lookupVerdict_refused (h : laneAccepts s l p.dir = false) :
    lookupVerdict s l p = if (s.lane l).state = .free then .free else .deny none .laneDirection false := by
  simp [lookupVerdict, h, laneRefusal]

theorem lookupVerdict_unknown (h : laneAccepts s l p.dir = true) (hnone : s.entry p.cred = none) :
    lookupVerdict s l p = .deny none .unknownCredential false := by
  simp [lookupVerdict, h, hnone]

section Found

variable (haccepts : laneAccepts s l p.dir = true) (he : s.entry p.cred = some e)
include haccepts he

theorem lookupVerdict_claimed {v : Verdict} (h : claimCheck s e l p.dir = some v) : lookupVerdict s l p = v := by
  simp [lookupVerdict, haccepts, he, h]

theorem lookupVerdict_unclaimed (h : e.claim = none) : lookupVerdict s l p = weigh s e l p.dir p.medium := by
  simp [lookupVerdict, haccepts, he, claimCheck, h]

variable (hclaim : e.claim = none)
include hclaim

theorem lookupVerdict_denied (h : permitCheck s e l p.dir (some p.medium) = some r) :
    lookupVerdict s l p = .deny (some e) r false := by
  rw [lookupVerdict_unclaimed haccepts he hclaim, weigh, h]

variable (hpermit : permitCheck s e l p.dir (some p.medium) = none)
include hpermit

theorem lookupVerdict_passback (h : passbackCheck e p.dir = .error r) : lookupVerdict s l p = .deny (some e) r false := by
  rw [lookupVerdict_unclaimed haccepts he hclaim, weigh, hpermit, h]

theorem lookupVerdict_escort (h : passbackCheck e p.dir = .ok mark) :
    lookupVerdict s l p = escortCheck s e p.dir mark := by
  rw [lookupVerdict_unclaimed haccepts he hclaim, weigh, hpermit, h]

end Found

/-- Settles O37: the checks in their order, each refusing or handing on to the next. -/
theorem lookupVerdicts : Obligations.LookupVerdicts := by
  intro s l p
  refine ⟨lookupVerdict_refused, lookupVerdict_unknown, fun e haccepts he => ⟨fun t ht => ?_, fun v sp m st ph hw hwait => ?_,
    fun hw hnone => ?_, fun hclaim => ?_⟩⟩
  · exact lookupVerdict_claimed haccepts he (by simp [claimCheck, ht])
  · exact lookupVerdict_claimed haccepts he (by simp [claimCheck, hw, hwait])
  · exact lookupVerdict_claimed haccepts he (by simp [claimCheck, hw, hnone])
  have denied {r : DenyReason} := lookupVerdict_denied (r := r) haccepts he hclaim
  refine ⟨fun c x hc hx hgoing => denied (permitCheck_suspended (treatedSuspended_of_sponsor hc hx hgoing)),
    fun h => denied (permitCheck_suspended (treatedSuspended_of_flag h)), fun hstands => ⟨fun h =>
    denied (permitCheck_media hstands h), fun hmedium => ⟨fun h => denied (permitCheck_lane hstands hmedium h),
    fun hlane => ⟨fun h => denied (permitCheck_direction hstands hmedium hlane h), fun hdir => ?_⟩⟩⟩⟩
  have hrest := permitCheck_rest hstands hmedium hlane hdir
  have invalid {r : DenyReason} (h : validityCheck s e = some r) : lookupVerdict s l p = .deny (some e) r false :=
    denied (by rw [hrest, h]; rfl)
  refine ⟨fun h hunset => invalid (validityCheck_clockUnset h hunset),
    fun f hf hset hearly => invalid (validityCheck_notYet hf hset hearly),
    fun x hx hbegun hset hpast => invalid (validityCheck_expired hx hbegun hset hpast), fun hvalid => ?_⟩
  have hpermit : permitCheck s e l p.dir (some p.medium) = entryCheck s e p.dir := by
    rw [hrest, validityCheck_passed hvalid]
    rfl
  refine ⟨fun hexit => ?_, fun hentry => ?_⟩
  · have hpass : permitCheck s e l p.dir (some p.medium) = none := by rw [hpermit, hexit, entryCheck_exit]
    have granted {mark : Bool} (h : passbackCheck e p.dir = .ok mark) : lookupVerdict s l p = .grant e mark := by
      rw [lookupVerdict_escort haccepts he hclaim hpass h, escortCheck_alone (by simp [needsEscort, hexit])]
    have happlies : passbackApplies e p.dir = (e.side == .outside) := by rw [hexit]; rfl
    refine ⟨fun h => granted ?_, fun hside hrule => ?_, fun hside hrule => granted ?_⟩
    · rw [passbackCheck_ok (by rw [happlies]; rcases h with h | h <;> simp [h]), happlies]
      rcases h with h | h <;> simp [h]
    · exact lookupVerdict_passback haccepts he hclaim hpass (passbackCheck_strict (by simp [happlies, hside]) hrule)
    · rw [passbackCheck_ok (by simp [hrule]), happlies, hside, hrule]
      rfl
  · have happlies : passbackApplies e p.dir = (e.side == .inside) := by rw [hentry]; rfl
    replace hpermit : permitCheck s e l p.dir (some p.medium) = entryCheck s e .entry := by rw [hpermit, hentry]
    refine ⟨fun huses => denied (by rw [hpermit, entryCheck_usedUp huses]), fun huses hresponder =>
      ⟨fun hlocked => denied (by rw [hpermit, entryCheck_lockdown huses hresponder hlocked]), fun hopen hgov =>
      denied (by rw [hpermit, entryCheck_governor huses hresponder hopen hgov])⟩, fun huses hmay => ?_⟩
    have hpass : permitCheck s e l p.dir (some p.medium) = none := by
      rw [hpermit, entryCheck_passed huses hmay]
    refine ⟨fun hside hrule => lookupVerdict_passback haccepts he hclaim hpass (passbackCheck_strict
      (by simp [happlies, hside]) hrule), fun mark hmark hsoft => ?_⟩
    have hescort : lookupVerdict s l p = escortCheck s e .entry mark := by
      have hok : passbackCheck e p.dir = .ok mark := by
        rw [passbackCheck_ok (by rw [happlies]; simpa using hsoft), happlies]
        congr 1
        rw [Bool.eq_iff_iff, hmark]
        simp
      rw [lookupVerdict_escort haccepts he hclaim hpass hok, hentry]
    rw [hescort]
    refine ⟨fun h => escortCheck_alone (by rcases h with h | h <;> simp [needsEscort, h]), fun c hcls hc =>
      ⟨escortCheck_credited hcls hc, fun hcredit hroom => escortCheck_await hcls hc hcredit (decide_eq_true hroom),
      fun hcredit hfull => escortCheck_busy hcls hc hcredit (decide_eq_false (Nat.not_lt.mpr hfull))⟩⟩

end Sys2Proof.Machine
end

section
/-!
PROOFS. The frame of a lane, which the escort unit's operations and the ends of events leave; and the creation of a window
(R5, R40, R50, R54, R101).
-/
namespace Sys2Proof.Machine

variable {s t : State} {l m : Lane} {c v : Cred} {ph : WaitPhase}

/-! ## The frame of a lane -/

/-- Of a lane: its state, and what offers of places, indications and ends of events leave. -/
def LaneUnit.frame (u : LaneUnit) : LaneState × Nat × Byte × Option Presentation × Bool × LaneSettings × LeafPosition
    × Zones × Counters × ActiveAction :=
  (u.state, u.windows.length, u.nextSerial, u.decision, u.obstruction, u.core)

theorem LaneUnit.fields_of_frame {u x : LaneUnit} (h : u.frame = x.frame) : u.state = x.state
    ∧ u.windows.length = x.windows.length ∧ u.nextSerial = x.nextSerial ∧ u.decision = x.decision
    ∧ u.obstruction = x.obstruction ∧ u.core = x.core := by
  simpa only [LaneUnit.frame, Prod.mk.injEq] using h

theorem frame_of_rest {u x : LaneUnit} (h : u.rest = x.rest) (hlength : u.windows.length = x.windows.length) :
    u.frame = x.frame := by
  obtain ⟨hstate, -, -, hserial, -, -, hobstruction, -, -, -, hdecision, -⟩ := LaneUnit.fields_of_rest h
  simp only [LaneUnit.frame, hstate, hlength, hserial, hdecision, hobstruction, core_of_rest h]

@[simp] theorem ask_frame {rd : Reader} {i : Indication} : ((ask l rd i s).lane m).frame = (s.lane m).frame :=
  frame_of_rest ask_rest (congrArg _ ask_windows)

@[simp] theorem askBoth_frame {i : Indication} : ((askBoth l i s).lane m).frame = (s.lane m).frame :=
  frame_of_rest askBoth_rest (congrArg _ askBoth_windows)

@[simp] theorem askEscort_frame {i : Indication} : ((askEscort l i s).lane m).frame = (s.lane m).frame :=
  frame_of_rest askEscort_rest (congrArg _ askEscort_windows)

@[simp] theorem endEvent_frame : ((endEvent l s).lane m).frame = (s.lane m).frame :=
  frame_of_rest endEvent_rest endEvent_goneOn.length_eq

@[simp] theorem endEvents_frame {ls : List Lane} : ((endEvents ls s).lane m).frame = (s.lane m).frame :=
  frame_of_rest endEvents_rest endEvents_goneOn.length_eq

@[simp] theorem offerPlaces_frame : ((offerPlaces l s).lane m).frame = (s.lane m).frame := by
  obtain ⟨r, hr⟩ := offerPlaces_lane (s := s) (l := l) (m := m)
  rw [hr]
  rfl

@[simp] theorem endReservation_frame {f : Reservation → Bool} {st : Status} {body : List Byte} :
    ((endReservation l f st body s).lane m).frame = (s.lane m).frame := by
  obtain ⟨r, hr⟩ := endReservation_lane (s := s) (l := l) (m := m) (f := f) (st := st) (body := body)
  rw [hr]
  rfl

@[simp] theorem onEscort_lane {f : List EscortRec → List EscortRec} : (onEscort f s).lane m = s.lane m := rfl

@[simp] theorem settleLane_frame : ((settleLane l s).lane m).frame = (s.lane m).frame := by simp [settleLane]

@[simp] theorem afterWait_frame : ((afterWait l ph s).lane m).frame = (s.lane m).frame := by
  unfold afterWait
  split <;> simp

@[simp] theorem afterDeskWait_frame {x : Option EscortRec} : ((afterDeskWait x s).lane m).frame = (s.lane m).frame := by
  unfold afterDeskWait
  split <;> simp

@[simp] theorem expireWait_frame {sp : Cred} : ((expireWait v sp l s).lane m).frame = (s.lane m).frame := by
  simp [expireWait]

@[simp] theorem withdrawnByTable_frame : ((withdrawnByTable v l s).lane m).frame = (s.lane m).frame := by
  simp [withdrawnByTable]

@[simp] theorem backToPending_frame : ((backToPending v s).lane m).frame = (s.lane m).frame := by
  unfold backToPending
  repeat' split
  all_goals simp

@[simp] theorem moveWait_frame : ((moveWait v l s).lane m).frame = (s.lane m).frame := by
  unfold moveWait
  split
  · dsimp only
    split <;> simp
  · rfl

@[simp] theorem endStale_frame : ((endStale v l s).lane m).frame = (s.lane m).frame := by
  unfold endStale
  dsimp only
  repeat' split
  all_goals simp

/-- A change of lane state leaves the rest of the frame (R48). -/
theorem changeState_frame {new : LaneState} : ((changeState l new s).lane m).frame.2 = (s.lane m).frame.2 := by
  by_cases hm : m = l
  · subst hm
    by_cases h : (s.lane m).state = new
    · rw [changeState_of_eq h]
    · obtain ⟨r, hr⟩ := changeState_lane h
      rw [hr]
      rfl
  · rw [changeState_lane_ne hm]

/-! ## Entries by what they are read from -/

theorem entry_of_table (h : t.table = s.table) : t.entry c = s.entry c := entry_of_entries (congrArg _ h) c

theorem changeState_table {new : LaneState} : (changeState l new s).table = s.table :=
  (changeState_keeps (b := .table) (by simp)).mpr rfl

theorem changeState_dispatch {new : LaneState} : (changeState l new s).dispatch = s.dispatch :=
  (changeState_keeps (b := .dispatch) (by simp)).mpr rfl

theorem postCall_table {w : Window} : (postCall w s).table = s.table := (postCall_keeps (b := .table) (by simp)).mpr rfl

/-! ## The creation of a window -/

section Creation

variable {e : Entry} {d : Direction} {o : Origin} {k : Bool}

theorem createWindow_windows : ((createWindow l e d o k s).lane l).windows
    = (s.lane l).windows ++ [newWindow s l e d o k] := by
  unfold createWindow
  dsimp only
  rw [ask_windows, changeState_windows, onEntry_lane, State.lane_onLane_self, postCall_lane]

theorem createWindow_nextSerial : ((createWindow l e d o k s).lane l).nextSerial = (s.lane l).nextSerial + 1 := by
  unfold createWindow
  dsimp only
  have hchanged (x : State) : ((changeState l .serving x).lane l).nextSerial = (x.lane l).nextSerial :=
    congrArg (fun f => f.2.1) changeState_frame
  rw [(LaneUnit.fields_of_frame ask_frame).2.2.1, hchanged, onEntry_lane, State.lane_onLane_self, postCall_lane]

theorem createWindow_decision : ((createWindow l e d o k s).lane l).decision = (s.lane l).decision := by
  unfold createWindow
  dsimp only
  have hchanged (x : State) : ((changeState l .serving x).lane l).decision = (x.lane l).decision :=
    congrArg (fun f => f.2.2.1) changeState_frame
  rw [(LaneUnit.fields_of_frame ask_frame).2.2.2.1, hchanged, onEntry_lane, State.lane_onLane_self, postCall_lane]

theorem createWindow_state : ((createWindow l e d o k s).lane l).state = .serving := by
  unfold createWindow
  dsimp only
  rw [ask_state, changeState_state]

/-- A new window's entry has its claim set to its tag (R5, R40). -/
theorem createWindow_entry : (createWindow l e d o k s).entry c = if c = e.cred
    then (s.entry c).map (fun x => { x with claim := some (.window ⟨l, (s.lane l).nextSerial⟩) }) else s.entry c := by
  unfold createWindow
  dsimp only
  have hasked (x : State) : (ask l d.reader .wait (changeState l .serving x)).table = x.table :=
    changeState_table (l := l) (new := .serving)
  rw [entry_of_table (hasked _),
    entry_onEntry (f := fun x => { x with claim := some (.window (newWindow s l e d o k).tag) }) (fun _ => rfl)]
  have hposted : ((postCall (newWindow s l e d o k) s).onLane l (fun u => { u with
      windows := u.windows ++ [newWindow s l e d o k], nextSerial := u.nextSerial + 1 })).entry c = s.entry c :=
    entry_of_table postCall_table
  rw [hposted]
  rfl

theorem createWindow_dispatch : (createWindow l e d o k s).dispatch = (postCall (newWindow s l e d o k) s).dispatch := by
  have hasked (x : State) : (ask l d.reader .wait (changeState l .serving x)).dispatch = x.dispatch :=
    changeState_dispatch (l := l) (new := .serving)
  unfold createWindow
  dsimp only
  rw [hasked]
  rfl

theorem newCallState_unwanted (h : s.dispatch.dispatch = false ∨ d = .exit ∨ e.floor = none) :
    newCallState s e d = .none := by
  rcases h with h | h | h <;> simp [newCallState, callWanted, h]

section Wanted

variable {f : Nat} (hon : s.dispatch.dispatch = true) (hd : d = .entry) (hf : e.floor = some f)
include hon hd hf

theorem newCallState_posted (h : s.dispatch.queue.length < 32) : newCallState s e d = .posted := by
  simp [newCallState, callWanted, hon, hd, hf, Config.callCapacity, h]

theorem newCallState_lost (h : 32 ≤ s.dispatch.queue.length) : newCallState s e d = .notPosted := by
  simp [newCallState, callWanted, hon, hd, hf, Config.callCapacity, Nat.not_lt.mpr h]

end Wanted

end Creation

/-- Settles O38: the appended window is the new one, its tag is the entry's claim, and its CALL is posted, lost or not wanted.
-/
theorem windowCreated : Obligations.WindowCreated := by
  intro l e d o mark s he _
  have hentry := createWindow_entry (s := s) (l := l) (c := e.cred) (e := e) (d := d) (o := o) (k := mark)
  rw [if_pos rfl, he] at hentry
  refine ⟨newWindow s l e d o mark, createWindow_windows, rfl, rfl, rfl, rfl, rfl, rfl, rfl, rfl, rfl, rfl,
    createWindow_nextSerial, createWindow_state, hentry, fun hunwanted => ?_, fun f hon hd hf => ⟨fun hroom => ?_,
    fun hfull => ?_⟩⟩
  · have hcall : (newWindow s l e d o mark).call = .none := newCallState_unwanted hunwanted
    refine ⟨hcall, ?_⟩
    rw [createWindow_dispatch]
    simp only [postCall, hcall]
  · have hcall : (newWindow s l e d o mark).call = .posted := newCallState_posted hon hd hf hroom
    have hfloor : (newWindow s l e d o mark).floor = some f := hf
    refine ⟨hcall, if_pos hcall, ?_⟩
    rw [createWindow_dispatch]
    simp only [postCall, hcall, hfloor, setCalls_dispatch]
    rfl
  · have hcall : (newWindow s l e d o mark).call = .notPosted := newCallState_lost hon hd hf hfull
    have hfloor : (newWindow s l e d o mark).floor = some f := hf
    refine ⟨hcall, ?_⟩
    rw [createWindow_dispatch]
    simp only [postCall, hcall, hfloor]
    rfl

end Sys2Proof.Machine
end

section
/-!
PROOFS. The presentation lookup (R32, R39 to R43, R76, R82).
-/
namespace Sys2Proof.Machine

variable {s t u : State} {l m : Lane} {c v : Cred} {e : Entry} {d : Direction} {p : Presentation} {x : Verdict} {mark : Bool}

/-! ## Records that stand -/

/-- Every record handed over in `s` still stands among those of `t`. -/
def RecordsKept (s t : State) : Prop := ∀ r ∈ s.mail.records, r ∈ t.mail.records

theorem RecordsKept.trans (h : RecordsKept s t) (k : RecordsKept t u) : RecordsKept s u := fun r hr => k r (h r hr)

theorem RecordsKept.of_same (h : Block.records.same s t) : RecordsKept s t := fun r hr => by
  have hrecords : t.mail.records = s.mail.records := h
  rwa [hrecords]

theorem RecordsKept.refl (s : State) : RecordsKept s s := fun _ => id

/-- Operations that hand no record over, after those that keep the records. -/
theorem RecordsKept.to_same (h : RecordsKept s t) (k : Block.records.same t u) : RecordsKept s u := h.trans (.of_same k)

theorem handOver_recordsKept (src : Source) (r : Record) (s : State) : RecordsKept s (handOver src r s) :=
  fun _ hr => List.mem_append_left _ hr

theorem endReservation_recordsKept {f : Reservation → Bool} {st : Status} {body : List Byte} (s : State) :
    RecordsKept s (endReservation l f st body s) := by
  unfold endReservation
  split
  · split
    · exact handOver_recordsKept _ _ (answer _ st body (s.onLane l _))
    · exact .refl s
  · exact .refl s

theorem escortRecord_recordsKept (k : EscortCode) (o : Option Lane) (c : Option Cred) (q : Detail) (s : State) :
    RecordsKept s (escortRecord k o c q s) := handOver_recordsKept _ _ s

theorem recordState_recordsKept {a b : LaneState} (s : State) : RecordsKept s (recordState l a b s) :=
  handOver_recordsKept (.sequencer l) _ s

theorem changeState_recordsKept (l : Lane) (new : LaneState) (s : State) : RecordsKept s (changeState l new s) := by
  unfold changeState
  dsimp only
  split
  · exact .refl s
  · have hentered : RecordsKept s (report l (.changed (s.lane l).state new)
        (s.onLane l (fun u => u.enter new (s.after Config.obstructionLimit)))) := .of_same (by simp)
    generalize hs' : (if ((s.lane l).state.inService && new.inService || new == .alarm) = true then _ else _) = s'
    have hkept : RecordsKept s s' := by
      rw [← hs']
      split
      · exact hentered
      · exact hentered.trans (recordState_recordsKept _)
    repeat' split
    · exact hkept
    · exact hkept.trans (endReservation_recordsKept _)
    · exact hkept.trans (endReservation_recordsKept _)

theorem postCall_recordsKept (w : Window) (s : State) : RecordsKept s (postCall w s) := by
  unfold postCall
  split
  · exact .of_same (by simp)
  · exact handOver_recordsKept .dispatch _ (countLoss s)
  · exact .refl s

theorem createWindow_recordsKept {o : Origin} (s : State) : RecordsKept s (createWindow l e d o mark s) := by
  unfold createWindow
  dsimp only
  generalize hs' : onEntry e.cred _ _ = s'
  have hposted : RecordsKept s s' := by
    rw [← hs']
    exact (postCall_recordsKept (newWindow s l e d o mark) s).to_same (by simp)
  exact (hposted.trans (changeState_recordsKept l .serving s')).to_same (by simp)

theorem expireWait_recordsKept (v sp : Cred) (l : Lane) (s : State) : RecordsKept s (expireWait v sp l s) :=
  (escortRecord_recordsKept .escortTimeout (some l) (some v) (.cred sp)
    (claimFirst (.claimRelease v) (dropWait v s))).to_same (by simp [expireWait])

theorem withdrawnByTable_recordsKept (v : Cred) (l : Lane) (s : State) : RecordsKept s (withdrawnByTable v l s) :=
  (escortRecord_recordsKept .withdrawn (some l) (some v) (causeDetail 0) (dropWait v s)).to_same
    (by simp [withdrawnByTable])

theorem backToPending_recordsKept (v : Cred) (s : State) : RecordsKept s (backToPending v s) := by
  unfold backToPending
  split
  · rename_i y sp m st ph hwait
    split
    · dsimp only
      split
      · exact (expireWait_recordsKept v sp m s).to_same (by simp)
      · exact expireWait_recordsKept _ _ _ s
    · exact .of_same (by simp)
  · exact .refl s

theorem moveWait_recordsKept (v : Cred) (l : Lane) (s : State) : RecordsKept s (moveWait v l s) := by
  unfold moveWait
  split
  · have hmoved : RecordsKept s (onEscort (setWaitLane v l) s) := .of_same (by simp)
    dsimp only
    split
    · exact (hmoved.trans (backToPending_recordsKept v _)).to_same (by simp)
    · exact hmoved.to_same (by simp)
  · exact .refl s

theorem endStale_recordsKept (v : Cred) (l : Lane) (s : State) : RecordsKept s (endStale v l s) := by
  have htaken : RecordsKept s (takeWaitEnds v s) := .of_same (by simp)
  unfold endStale
  dsimp only
  split
  · rename_i y sp m st ph hwait
    split
    · exact htaken.trans (withdrawnByTable_recordsKept v m _)
    · exact (htaken.trans (withdrawnByTable_recordsKept v m _)).to_same (by simp)
  · exact htaken

theorem verdictEffect_recordsKept (s : State) : RecordsKept s (verdictEffect l d x s) := by
  unfold verdictEffect
  split
  · exact (endStale_recordsKept _ l s).trans (createWindow_recordsKept _)
  · rename_i e mark
    exact (endStale_recordsKept e.cred l s).to_same (by simp)
  · exact moveWait_recordsKept _ l s
  · exact .refl s

/-! ## The entry a verdict carries -/

theorem escortCheck_entry : (escortCheck s e d mark).entry = some e := by
  unfold escortCheck
  repeat' split
  all_goals rfl

theorem weigh_entry {k : Medium} : (weigh s e l d k).entry = some e := by
  unfold weigh
  split
  · rfl
  · split
    · rfl
    · exact escortCheck_entry

theorem claimCheck_entry (h : claimCheck s e l d = some x) : x.entry = some e := by
  unfold claimCheck at h
  split at h
  · contradiction
  · rw [← Option.some.inj h]
    split <;> rfl
  · split at h <;> rw [← Option.some.inj h]
    · repeat' split
      all_goals rfl
    · rfl

/-- The entry a verdict carries is the one found (R32, R41). -/
theorem lookupVerdict_entry (h : (lookupVerdict s l p).entry = some e) : s.entry p.cred = some e := by
  unfold lookupVerdict at h
  split at h
  · unfold laneRefusal at h
    split at h <;> contradiction
  · split at h
    · contradiction
    · rename_i found hfound
      have hcarried : ((claimCheck s found l p.dir).getD (weigh s found l p.dir p.medium)).entry = some found := by
        cases hclaim : claimCheck s found l p.dir with
        | none => exact weigh_entry
        | some y => exact claimCheck_entry hclaim
      rw [hfound, ← hcarried, h]

/-! ## A verdict given -/

/-- The verdict's record, and its effect on the table and the collections (R40, R41, R43). -/
def verdictTaken (l : Lane) (d : Direction) (c : Cred) (x : Verdict) (s : State) : State :=
  verdictEffect l d x (verdictRecord l d c x s)

theorem giveVerdict_table : (giveVerdict l d c x s).table = (verdictTaken l d c x s).table := by
  unfold giveVerdict verdictTaken
  dsimp only
  repeat' split
  all_goals rfl

theorem giveVerdict_escort : (giveVerdict l d c x s).escort = (verdictTaken l d c x s).escort := by
  unfold giveVerdict verdictTaken
  dsimp only
  repeat' split
  all_goals rfl

theorem giveVerdict_mail : (giveVerdict l d c x s).mail = (verdictTaken l d c x s).mail := by
  unfold giveVerdict verdictTaken
  dsimp only
  repeat' split
  all_goals rfl

/-- What a verdict's count and indication make of its lane (R41, R42, R76). -/
theorem giveVerdict_lane : ((giveVerdict l d c x s).lane l).rest
    = (if x.denies then ((verdictTaken l d c x s).lane l).count (fun k => { k with denial := saturate k.denial })
        else (verdictTaken l d c x s).lane l).rest
      ∧ ((giveVerdict l d c x s).lane l).windows = ((verdictTaken l d c x s).lane l).windows := by
  have hcount (v : State) : ((if x.denies then countDenial l v else v).lane l)
      = if x.denies then (v.lane l).count (fun k => { k with denial := saturate k.denial }) else v.lane l := by
    split
    · exact State.lane_onLane_self ..
    · rfl
  have hwindows (v : State) : ((if x.denies then countDenial l v else v).lane l).windows = (v.lane l).windows := by
    rw [hcount]
    split <;> rfl
  unfold giveVerdict
  dsimp only
  split
  · rw [ask_rest, ask_windows, hwindows, hcount]
    exact ⟨rfl, rfl⟩
  · rw [hwindows, hcount]
    exact ⟨rfl, rfl⟩

theorem giveVerdict_decision : ((giveVerdict l d c x s).lane l).decision = ((verdictTaken l d c x s).lane l).decision := by
  obtain ⟨-, -, -, -, -, -, -, -, -, -, hdecision, -⟩ := LaneUnit.fields_of_rest giveVerdict_lane.1
  rw [hdecision]
  split <;> rfl

theorem giveVerdict_counters : ((giveVerdict l d c x s).lane l).counters
    = if x.denies = true ∧ (s.lane l).state.unaddressed = false
      then { (s.lane l).counters with denial := saturate (s.lane l).counters.denial } else (s.lane l).counters := by
  obtain ⟨-, -, -, -, -, -, -, -, -, hcounters, -⟩ := LaneUnit.fields_of_rest giveVerdict_lane.1
  rw [hcounters]
  cases hdenies : x.denies with
  | false =>
    have hcore : ((verdictTaken l d c x s).lane l).core = (s.lane l).core := by
      rw [verdictTaken, verdictEffect_core, verdictRecord_lane]
    simpa using (LaneUnit.fields_of_core hcore).2.2.2.1
  | true =>
    have hsame : (verdictTaken l d c x s).lane l = s.lane l := by
      cases x <;> first | rfl | contradiction
    rw [if_pos rfl, hsame]
    cases hstate : (s.lane l).state.unaddressed <;> simp [LaneUnit.count, hstate]

theorem verdictRecord_mem : (Source.decision, ({
    time := s.stamp, code := .verdict x.kind, lane := some l, tag := x.tag s l, cred := some c,
    cls := x.entry.map (fun e => e.cls), dir := some d, detail := x.detail } : Record))
      ∈ (giveVerdict l d c x s).mail.records := by
  rw [giveVerdict_mail]
  exact verdictEffect_recordsKept _ _ (List.mem_append_right _ (List.mem_singleton_self _))

/-! ## What a verdict makes of the lane, the table and the escort list -/

theorem endStale_entry : (endStale v l s).entry c = s.entry c :=
  entry_of_table ((endStale_keeps (b := .table) (by simp)).mpr rfl)

theorem grant_windows : ((verdictTaken l d c (.grant e mark) s).lane l).windows.length = (s.lane l).windows.length + 1 := by
  have hstale : ((endStale e.cred l (verdictRecord l d c (.grant e mark) s)).lane l).windows.length
      = (s.lane l).windows.length := (LaneUnit.fields_of_frame endStale_frame).2.1
  change ((createWindow l e d .presentation mark _).lane l).windows.length = _
  rw [createWindow_windows, List.length_append, hstale]
  rfl

theorem grant_entry (h : s.entry e.cred = some e) : (verdictTaken l d c (.grant e mark) s).entry e.cred
    = some { e with claim := some (.window ⟨l, (s.lane l).nextSerial⟩) } := by
  have hserial : ((endStale e.cred l (verdictRecord l d c (.grant e mark) s)).lane l).nextSerial
      = (s.lane l).nextSerial := (LaneUnit.fields_of_frame endStale_frame).2.2.1
  have hentry : (endStale e.cred l (verdictRecord l d c (.grant e mark) s)).entry e.cred = some e :=
    endStale_entry.trans h
  change (createWindow l e d .presentation mark _).entry e.cred = _
  rw [createWindow_entry, if_pos rfl, hentry, hserial]
  rfl

theorem verdictTaken_decision : ((verdictTaken l d c x s).lane l).decision = (s.lane l).decision := by
  unfold verdictTaken verdictEffect
  split
  · rw [createWindow_decision]
    exact (LaneUnit.fields_of_frame endStale_frame).2.2.2.1
  · exact (LaneUnit.fields_of_frame endStale_frame).2.2.2.1
  · exact (LaneUnit.fields_of_frame moveWait_frame).2.2.2.1
  · rfl

theorem verdictTaken_windows (h : x.kind ≠ .grant) :
    ((verdictTaken l d c x s).lane l).windows.length = (s.lane l).windows.length := by
  unfold verdictTaken verdictEffect
  split
  · contradiction
  · exact (LaneUnit.fields_of_frame endStale_frame).2.1
  · exact (LaneUnit.fields_of_frame moveWait_frame).2.1
  · rfl

theorem await_entry (h : s.entry e.cred = some e) :
    (verdictTaken l d c (.await e mark) s).entry e.cred = some { e with claim := some .wait } := by
  change (onEntry e.cred (fun x => { x with claim := some .wait }) _).entry e.cred = _
  rw [entry_onEntry (f := fun x => { x with claim := some .wait }) (fun _ => rfl), if_pos rfl]
  have hentry : (endStale e.cred l (verdictRecord l d c (.await e mark) s)).entry e.cred = some e :=
    endStale_entry.trans h
  exact congrArg (Option.map _) hentry

/-- The visitor's WAITs on a list. -/
def waitsOf (v : Cred) (s : State) : List EscortRec := s.escort.list.filter (isWaitOf v)

theorem waitsOf_nil (h : s.waitOf v = none) : waitsOf v s = [] :=
  List.filter_eq_nil_iff.mpr fun r hr => by rw [waitOf_eq_none.mp h r hr]; exact Bool.false_ne_true

theorem await_waits : waitsOf e.cred (verdictTaken l d c (.await e mark) s)
    = [.wait e.cred (e.sponsor.getD 0) l s.time .waiting] := by
  have hnone : waitsOf e.cred (endStale e.cred l (verdictRecord l d c (.await e mark) s)) = [] := waitsOf_nil waitOf_endStale
  change ((endStale e.cred l (verdictRecord l d c (.await e mark) s)).escort.list ++ [_]).filter _ = _
  rw [List.filter_append]
  change waitsOf e.cred _ ++ _ = _
  rw [hnone]
  simp [isWaitOf]
  rfl

theorem filter_setPhase {w : Cred} {ph : WaitPhase} {xs : List EscortRec} (h : w ≠ v) :
    (setPhase w ph xs).filter (isWaitOf v) = xs.filter (isWaitOf v) := by
  induction xs with
  | nil => rfl
  | cons r rest ih =>
    cases r with
    | credit a b k => simpa [setPhase, isWaitOf] using ih
    | wait y sp m st q =>
      by_cases hy : y = w
      · subst hy
        simpa [setPhase, isWaitOf, h] using ih
      · by_cases hv : y = v
        · subst hv
          simpa [setPhase, isWaitOf, hy] using ih
        · simpa [setPhase, isWaitOf, hy, hv] using ih

/-- An offered place leaves a visitor alone whose only WAIT has no place promised. -/
theorem waitsOf_offerPlace {sp : Cred} {k : Lane} {st : Nat} (h : waitsOf v s = [.wait v sp k st .waiting]) :
    waitsOf v (offerPlace l s) = [.wait v sp k st .waiting] := by
  unfold offerPlace
  split
  · exact h
  · split
    · exact h
    · split
      · exact h
      · split
        · rename_i y ysp m yst ph hfound
          have hpending := List.find?_some hfound
          have hne : y ≠ v := by
            rintro rfl
            have hmem : EscortRec.wait y ysp m yst ph ∈ waitsOf y s :=
              List.mem_filter.mpr ⟨List.mem_of_find?_eq_some hfound, by simp [isWaitOf]⟩
            rw [h, List.mem_singleton] at hmem
            rw [hmem] at hpending
            contradiction
          exact (filter_setPhase hne).trans h
        · exact h

theorem waitsOf_settleLane {sp : Cred} {k : Lane} {st : Nat} (h : waitsOf v s = [.wait v sp k st .waiting]) :
    waitsOf v (settleLane l s) = [.wait v sp k st .waiting] := by
  have hescort : (settleLane l s).escort = (offerPlaces l s).escort := (endEvent_keeps (b := .escort) (by simp)).mpr rfl
  rw [waitsOf, hescort]
  exact waitsOf_offerPlace (waitsOf_offerPlace h)

/-! ## The lookup -/

theorem exec_presentationLookup {rest : List SecondOp} (hrun : s.resetHeld = false) (hfirst : s.arbiter.first = [])
    (hsecond : s.arbiter.second = .lookup l :: rest) (hp : (s.lane l).decision = some p) :
    exec .presentationLookup s = .next (lookupAtTable l p (popSecond s)) := by
  refine (running_of_not_resetHeld hrun _).trans ?_
  simp only [secondTurn, hfirst, hsecond, List.isEmpty_nil, if_true, List.head?_cons, hp]

/-- The lane's event after a lookup: a GRANT used the held place, and any other verdict gives it back (R32, R72). -/
def lookupSettled (l : Lane) (x : Verdict) (s : State) : State := if x.kind = .grant then endEvent l s else settleLane l s

theorem lookupSettled_frame : ((lookupSettled l x s).lane m).frame = (s.lane m).frame := by
  unfold lookupSettled
  split <;> simp

theorem lookupSettled_table : (lookupSettled l x s).table = s.table := by
  unfold lookupSettled
  split
  · exact (endEvent_keeps (b := .table) (by simp)).mpr rfl
  · exact (settleLane_keeps (b := .table) (by simp)).mpr rfl

theorem lookupSettled_recordsKept (s : State) : RecordsKept s (lookupSettled l x s) := by
  unfold lookupSettled
  split
  · exact .of_same (by simp)
  · exact .of_same (by simp)

theorem lookupAtTable_eq (hx : lookupVerdict s l p = x) : lookupAtTable l p (popSecond s)
    = lookupSettled l x (giveVerdict l p.dir p.cred x (clearDecision l (popSecond s))) := by
  have hsame : lookupVerdict (popSecond s) l p = x := hx
  rw [← hsame]
  rfl

theorem clearDecision_lane : (clearDecision l (popSecond s)).lane l = { s.lane l with decision := none } :=
  State.lane_onLane_self ..

theorem Verdict.tag_of_lane (h : (t.lane l).nextSerial = (s.lane l).nextSerial) : x.tag t l = x.tag s l := by
  cases x <;> simp only [Verdict.tag, h]

theorem unaddressed_eq_false_iff {st : LaneState} : st.unaddressed = false ↔ st ≠ .masked ∧ st ≠ .isolated := by
  cases st <;> simp [LaneState.unaddressed]

/-- Settles O39: the lookup by its verdict, then the lane's event. -/
theorem presentationLookedUp : Obligations.PresentationLookedUp := by
  intro l p rest s hrun hfirst hsecond hp
  obtain ⟨x, hx⟩ : ∃ x, lookupVerdict s l p = x := ⟨_, rfl⟩
  let cleared := clearDecision l (popSecond s)
  have hcleared : cleared.lane l = { s.lane l with decision := none } := clearDecision_lane
  obtain ⟨-, hlength, -, hdecision, -, hcore⟩ :=
    LaneUnit.fields_of_frame (lookupSettled_frame (l := l) (m := l) (x := x) (s := giveVerdict l p.dir p.cred x cleared))
  have hentry (c : Cred) : (lookupSettled l x (giveVerdict l p.dir p.cred x cleared)).entry c
      = (verdictTaken l p.dir p.cred x cleared).entry c := entry_of_table (lookupSettled_table.trans giveVerdict_table)
  have hfound {e : Entry} (h : x.entry = some e) : s.entry e.cred = some e := by
    have he := lookupVerdict_entry (hx ▸ h)
    rwa [(State.entry_some he).2]
  rw [exec_presentationLookup hrun hfirst hsecond hp, lookupAtTable_eq hx, hx]
  refine ⟨_, rfl, ?_, ?_, fun e mark hgrant => ?_, fun e mark hawait => ?_, fun hkind => ?_, ?_⟩
  · rw [hdecision, giveVerdict_decision, verdictTaken_decision, hcleared]
  · refine lookupSettled_recordsKept _ _ ?_
    have htag : x.tag cleared l = x.tag s l := Verdict.tag_of_lane (by rw [hcleared])
    rw [← htag]
    exact verdictRecord_mem
  · subst hgrant
    refine ⟨?_, ?_⟩
    · rw [hlength, giveVerdict_lane.2, grant_windows, hcleared]
    · have hserial : (cleared.lane l).nextSerial = (s.lane l).nextSerial := by rw [hcleared]
      rw [hentry, ← hserial]
      exact grant_entry (hfound rfl)
  · subst hawait
    refine ⟨?_, ?_⟩
    · rw [hentry]
      exact await_entry (hfound rfl)
    · change waitsOf e.cred (settleLane l _) = _
      refine waitsOf_settleLane ?_
      rw [waitsOf, giveVerdict_escort]
      exact await_waits
  · rw [hlength, giveVerdict_lane.2, verdictTaken_windows hkind, hcleared]
  · rw [(LaneUnit.fields_of_core hcore).2.2.2.1, giveVerdict_counters, hcleared]
    simp only [unaddressed_eq_false_iff]
    split <;> rfl

end Sys2Proof.Machine
end

section
/-!
PROOFS. The desk pass: at its lane, at the table, and the end of a reservation's hold (R45 to R47, R90).
-/
namespace Sys2Proof.Machine

variable {s t : State} {l m : Lane} {c : Cred} {d : Direction} {p : Port} {e : Entry} {mark : Bool}

/-! ## Codes of lanes and directions -/

theorem Lane.ofNum_num (l : Lane) : Lane.ofNum l.num = some l := by cases l <;> rfl

theorem Lane.ofNum_large {n : Nat} (h : 7 < n) : Lane.ofNum n = none := by
  unfold Lane.ofNum
  split <;> first | omega | rfl

theorem Direction.ofNum_num (d : Direction) : Direction.ofNum d.num = some d := by cases d <;> rfl

theorem Direction.ofNum_large {n : Nat} (h : 1 < n) : Direction.ofNum n = none := by
  unfold Direction.ofNum
  split <;> first | omega | rfl

theorem Cred.valid_eq_false (h : c = 0 ∨ c = 0xFFFFFFFF) : Cred.valid c = false := by
  rcases h with rfl | rfl <;> rfl

theorem Cred.valid_of_ne (h : c ≠ 0) (k : c ≠ 0xFFFFFFFF) : Cred.valid c = true := by
  simpa [Cred.valid] using And.intro h k

/-! ## DESK_PASS at its lane -/

/-- DESK_PASS with its fields read (R45). -/
def deskPassTaken (p : Port) (c : Cred) (lane dir : Byte) (t : State) : State :=
  match Lane.ofNum lane.toNat, Direction.ofNum dir.toNat with
  | some l, some d => if Cred.valid c then deskPassAt p c l d t else answer p .badField [] t
  | _, _ => answer p .badField [] t

theorem exec_deskPass {lane dir : Byte} (h : Asked p (.deskPass c lane dir) s) :
    exec (.deskPass p) s = .next (deskPassTaken p c lane dir (taken p s)) := by
  refine (running_of_not_resetHeld h.1 _).trans ?_
  simp only [h.2]
  rfl

theorem deskPassTaken_refused {lane dir : Byte} (h : 7 < lane.toNat ∨ 1 < dir.toNat ∨ c = 0 ∨ c = 0xFFFFFFFF) :
    deskPassTaken p c lane dir t = answer p .badField [] t := by
  rcases h with h | h | h
  · simp only [deskPassTaken, Lane.ofNum_large h]
  · simp only [deskPassTaken, Direction.ofNum_large h]
    split
    · contradiction
    · rfl
  · simp only [deskPassTaken, Cred.valid_eq_false h]
    split <;> rfl

theorem deskPassTaken_read {lane dir : Byte} (hl : l.num = lane.toNat) (hd : d.num = dir.toNat) (h : c ≠ 0)
    (k : c ≠ 0xFFFFFFFF) : deskPassTaken p c lane dir t = deskPassAt p c l d t := by
  simp only [deskPassTaken, ← hl, ← hd, Lane.ofNum_num, Direction.ofNum_num, Cred.valid_of_ne h k, if_true]

theorem deskPassAt_out (h : (t.lane l).state.inService = false) :
    deskPassAt p c l d t = answer p .laneState [BitVec.ofNat 8 (t.lane l).state.num] t := by
  simp only [deskPassAt, h]
  rfl

section InService

variable (hin : (t.lane l).state.inService = true)
include hin

theorem deskPassAt_disabled (h : modeEnables t l d = false) :
    deskPassAt p c l d t = denyDesk p ⟨c, l, d, false⟩ none .laneDirection t := by
  simp only [deskPassAt, hin, h]
  rfl

variable (hmode : modeEnables t l d = true)
include hmode

theorem deskPassAt_held (h : 0 < freePlaces t l) : deskPassAt p c l d t
    = { t with arbiter := { t.arbiter with desk := t.arbiter.desk.set p (some ⟨c, l, d, false⟩) } } := by
  simp only [deskPassAt, hin, hmode, gt_iff_lt, h]
  rfl

variable (hfull : freePlaces t l = 0)
include hfull

theorem deskPassAt_reserved (h : (t.lane l).reservation ≠ none) :
    deskPassAt p c l d t = answer p .laneReserved [] t := by
  simp only [deskPassAt, hin, hmode, hfull, Option.isSome_iff_ne_none.mpr h]
  rfl

theorem deskPassAt_reserves (h : (t.lane l).reservation = none) : deskPassAt p c l d t
    = t.onLane l (fun u => { u with reservation := some ⟨p, c, d, t.time⟩ }) := by
  simp only [deskPassAt, hin, hmode, hfull, h]
  rfl

end InService

/-- Settles O40: the fields, then the lane's state, its mode, its places and its reservation. -/
theorem deskPassAsked : Obligations.DeskPassAsked := by
  intro p c lane dir s h
  rw [exec_deskPass h]
  refine ⟨fun hbad => congrArg _ (deskPassTaken_refused hbad), fun l d hl hd h0 hF => ?_⟩
  rw [deskPassTaken_read hl hd h0 hF]
  refine ⟨fun hout => congrArg _ (deskPassAt_out hout), fun hin hmode => ⟨_, rfl, ?_, ?_⟩, fun hin hmode =>
    ⟨fun hroom => congrArg _ (deskPassAt_held hin hmode hroom), fun hfull hres =>
    congrArg _ (deskPassAt_reserved hin hmode hfull hres), fun hfull hres =>
    congrArg _ (deskPassAt_reserves hin hmode hfull hres)⟩⟩
  · rw [deskPassAt_disabled (t := taken p s) hin hmode]
    exact answer_reply
  · rw [deskPassAt_disabled (t := taken p s) hin hmode]
    rfl

/-! ## The lookup at the table -/

/-- The state in which a desk pass's lookup is weighed: the lookup has left the arbiter (R10, R45). -/
def lookupLeft (p : Port) (s : State) : State :=
  portServed p (s.onArbiter (fun a => { a with desk := a.desk.set p none }))

theorem exec_deskPassLookup {x : DeskLookup} (hrun : s.resetHeld = false) (hx : s.arbiter.desk.get p = some x)
    (hturn : portTurn s p = true) : exec (.deskPassLookup p) s = .next (deskAtTable p x (lookupLeft p s)) := by
  refine (running_of_not_resetHeld hrun _).trans ?_
  simp only [hx, hturn, if_true]
  rfl

theorem lookupLeft_table : (lookupLeft p s).table = s.table := by cases p <;> rfl

theorem lookupLeft_lane : (lookupLeft p s).lane m = s.lane m := by cases p <;> rfl

theorem deskVerdict_lookupLeft {x : DeskLookup} : deskVerdict (lookupLeft p s) x = deskVerdict s x := by cases p <;> rfl

theorem reservedRecord_replies {x : DeskLookup} {st : Status} :
    (reservedRecord x st s).mail.replies = s.mail.replies := by
  unfold reservedRecord
  split <;> rfl

theorem settleLane_reply : (settleLane l s).mail.replies.get p = s.mail.replies.get p :=
  (settleLane_keeps (b := .replies p) (by simp)).mpr rfl

theorem deskAtTable_out {x : DeskLookup} {st : LaneState} (h : deskVerdict s x = .laneState st) :
    (deskAtTable p x s).mail.replies.get p = some (replyBytes .laneState [BitVec.ofNat 8 st.num]) := by
  simp only [deskAtTable, h, settleLane_reply, reservedRecord_replies]
  exact answer_reply

theorem deskAtTable_denied {x : DeskLookup} {o : Option Entry} {r : DenyReason} (h : deskVerdict s x = .deny o r) :
    (deskAtTable p x s).mail.replies.get p = some (replyBytes .denied [BitVec.ofNat 8 r.num]) := by
  simp only [deskAtTable, h, settleLane_reply, reservedRecord_replies]
  exact answer_reply

/-! ## A desk pass granted -/

/-- The window of a granted desk pass, its holder's WAIT ended before (R45, R90). -/
def deskWindow (p : Port) (x : DeskLookup) (e : Entry) (mark : Bool) (s : State) : State :=
  createWindow x.lane e x.dir .deskPass mark (endWaitByDesk p e ⟨x.lane, (s.lane x.lane).nextSerial⟩
    (deskRecord p x (some e) (some ⟨x.lane, (s.lane x.lane).nextSerial⟩) mark none s))

/-- A granted desk pass replied to, with its records and the lane's event (R45, R90). -/
def deskReplied (p : Port) (x : DeskLookup) (w : Option EscortRec) (body : List Byte) (s : State) : State :=
  endEvent x.lane (afterDeskWait w (reservedRecord x .ok (answer p .ok body s)))

theorem grantDesk_eq {x : DeskLookup} : grantDesk p x e mark s = deskReplied p x (s.waitOf e.cred)
    [BitVec.ofNat 8 x.lane.num, (s.lane x.lane).nextSerial, if mark then 1 else 0] (deskWindow p x e mark s) := by
  cases mark <;> rfl

theorem deskReplied_reply {x : DeskLookup} {w : Option EscortRec} {body : List Byte} :
    (deskReplied p x w body s).mail.replies.get p = some (replyBytes .ok body) := by
  have hafter (t : State) : (endEvent x.lane (afterDeskWait w t)).mail.replies.get p = t.mail.replies.get p :=
    (endEvent_keeps (b := .replies p) (by simp)).mpr ((afterDeskWait_keeps (b := .replies p) (by simp)).mpr rfl)
  rw [deskReplied, hafter, reservedRecord_replies]
  exact answer_reply

theorem deskReplied_frame {x : DeskLookup} {w : Option EscortRec} {body : List Byte} :
    ((deskReplied p x w body s).lane m).frame = (s.lane m).frame := by simp [deskReplied]

theorem deskReplied_table {x : DeskLookup} {w : Option EscortRec} {body : List Byte} :
    (deskReplied p x w body s).table = s.table := by
  have hafter (t : State) : (endEvent x.lane (afterDeskWait w t)).table = t.table :=
    (endEvent_keeps (b := .table) (by simp)).mpr ((afterDeskWait_keeps (b := .table) (by simp)).mpr rfl)
  rw [deskReplied, hafter]
  exact (reservedRecord_keeps (b := .table) (by simp)).mpr rfl

theorem waitOf_afterDeskWait {w : Option EscortRec} {v : Cred} (h : s.waitOf v = none) :
    (afterDeskWait w s).waitOf v = none := by
  unfold afterDeskWait
  split
  · exact waitOf_afterWait h
  · exact h

theorem waitOf_deskReplied {x : DeskLookup} {w : Option EscortRec} {body : List Byte} {v : Cred} (h : s.waitOf v = none) :
    (deskReplied p x w body s).waitOf v = none := by
  rw [deskReplied, waitOf_endEvent]
  refine waitOf_afterDeskWait ?_
  have hescort : (reservedRecord x .ok (answer p .ok body s)).escort = s.escort :=
    (reservedRecord_keeps (b := .escort) (by simp)).mpr rfl
  rw [State.waitOf, hescort]
  exact h

theorem waitOf_endWaitByDesk {g : Tag} : (endWaitByDesk p e g s).waitOf e.cred = none := by
  unfold endWaitByDesk
  split
  · exact waitOf_dropWait
  · rename_i h
    exact Option.not_isSome_iff_eq_none.mp h

theorem waitOf_deskWindow {x : DeskLookup} : (deskWindow p x e mark s).waitOf e.cred = none := by
  have hescort (t : State) : (createWindow x.lane e x.dir .deskPass mark t).escort = t.escort :=
    (createWindow_keeps (b := .escort) (by simp)).mpr rfl
  rw [State.waitOf, deskWindow, hescort]
  exact waitOf_endWaitByDesk

theorem deskWindow_windows {x : DeskLookup} :
    ((deskWindow p x e mark s).lane x.lane).windows.length = (s.lane x.lane).windows.length + 1 := by
  rw [deskWindow, createWindow_windows, List.length_append, endWaitByDesk_lane]
  rfl

theorem deskWindow_entry {x : DeskLookup} (h : s.entry e.cred = some e) : (deskWindow p x e mark s).entry e.cred
    = some { e with claim := some (.window ⟨x.lane, (s.lane x.lane).nextSerial⟩) } := by
  have hentry (g : Tag) (t : State) : (endWaitByDesk p e g t).entry e.cred = t.entry e.cred :=
    entry_of_table ((endWaitByDesk_keeps (b := .table) (by simp)).mpr rfl)
  have hrecorded (g : Tag) : (deskRecord p x (some e) (some g) mark none s).entry e.cred = some e := h
  rw [deskWindow, createWindow_entry, if_pos rfl, hentry, hrecorded, endWaitByDesk_lane]
  rfl

/-- A desk pass is granted to the entry it names (R45). -/
theorem deskVerdict_grant {x : DeskLookup} (h : deskVerdict s x = .grant e mark) : s.entry e.cred = some e := by
  unfold deskVerdict at h
  dsimp only at h
  split at h
  · contradiction
  · split at h
    · contradiction
    · split at h
      · contradiction
      · rename_i found hfound
        have hgranted : found = e := by
          split at h
          · contradiction
          · split at h
            · contradiction
            · split at h
              · contradiction
              · exact (DeskVerdict.grant.inj h).1
        rw [← hgranted, (State.entry_some hfound).2]
        exact hfound

/-! ## The reservation's hold -/

theorem exec_reservationHoldExpiry (hrun : s.resetHeld = false) : exec (.reservationHoldExpiry l) s
    = .next (endReservation l (fun r => decide (r.made + 30000 ≤ s.time)) .timeout [] s) :=
  running_of_not_resetHeld hrun _

/-- Settles O41: the lookup by its verdict, and a reservation by its age. -/
theorem deskPassLookedUp : Obligations.DeskPassLookedUp := by
  intro s hrun
  refine ⟨fun p x hx hturn => ⟨_, exec_deskPassLookup hrun hx hturn, fun st hst => ?_, fun o r hdeny => ?_,
    fun e mark hgrant => ?_⟩, fun l r hr => ⟨fun hpast => ?_, fun hearly => ?_⟩, fun l hnone => ?_⟩
  · exact deskAtTable_out (deskVerdict_lookupLeft.trans hst)
  · exact deskAtTable_denied (deskVerdict_lookupLeft.trans hdeny)
  · have hgranted : deskAtTable p x (lookupLeft p s) = grantDesk p x e mark (lookupLeft p s) := by
      simp only [deskAtTable, deskVerdict_lookupLeft, hgrant]
    have hentry : (lookupLeft p s).entry e.cred = some e :=
      (entry_of_table lookupLeft_table).trans (deskVerdict_grant hgrant)
    rw [hgranted, grantDesk_eq, deskReplied_reply, lookupLeft_lane]
    refine ⟨rfl, ?_, ?_, waitOf_deskReplied waitOf_deskWindow⟩
    · rw [(LaneUnit.fields_of_frame deskReplied_frame).2.1, deskWindow_windows, lookupLeft_lane]
    · rw [entry_of_table deskReplied_table, deskWindow_entry hentry, lookupLeft_lane]
  · rw [exec_reservationHoldExpiry hrun, endReservation, hr]
    dsimp only
    rw [if_pos (decide_eq_true hpast)]
    rfl
  · rw [exec_reservationHoldExpiry hrun, endReservation, hr]
    dsimp only
    rw [if_neg (by simpa using hearly)]
  · rw [exec_reservationHoldExpiry hrun, endReservation, hnone]

end Sys2Proof.Machine
end

section
/-!
SUPPORT. Windows that an event ended, operations waiting for the table, steps over a list of lanes, and what the end of an
event leaves of a lane line.
-/
namespace Sys2Proof.Machine

variable {s t u : State} {l m : Lane} {w : Window} {o : WinOutcome}

/-! ## Operations of the first class that wait -/

/-- Every operation of the first class that waits in `s` still waits in `t` (R10). -/
def FirstKept (s t : State) : Prop := ∀ x ∈ s.arbiter.first, x ∈ t.arbiter.first

theorem FirstKept.refl (s : State) : FirstKept s s := fun _ => id

theorem FirstKept.trans (h : FirstKept s t) (k : FirstKept t u) : FirstKept s u := fun x hx => k x (h x hx)

theorem FirstKept.of_same (h : Block.arbiter.same s t) : FirstKept s t := fun x hx => by
  have harbiter : t.arbiter = s.arbiter := h
  rwa [harbiter]

theorem endWhere_firstKept (l : Lane) (f : Window → Bool) (o : WinOutcome) (s : State) : FirstKept s (endWhere l f o s) :=
  fun _ => endWhere_first

theorem offerPlace_firstKept (l : Lane) (s : State) : FirstKept s (offerPlace l s) := by
  unfold offerPlace
  repeat' split
  all_goals exact fun _ => id

theorem offerPlaces_firstKept (l : Lane) (s : State) : FirstKept s (offerPlaces l s) :=
  (offerPlace_firstKept l s).trans (offerPlace_firstKept l _)

theorem changeState_arbiter {new : LaneState} : (changeState l new s).arbiter = s.arbiter :=
  (changeState_keeps (b := .arbiter) (by simp)).mpr rfl

theorem endEvent_arbiter : (endEvent l s).arbiter = s.arbiter := (endEvent_keeps (b := .arbiter) (by simp)).mpr rfl

/-! ## Windows that an event ended -/

/-- The window is in CLOSING with its outcome in the lane's list, and so is every window of its tag (R70). -/
def ClosedAt (l : Lane) (o : WinOutcome) (w : Window) (s : State) : Prop :=
  w.ended o ∈ (s.lane l).windows ∧ ∀ x ∈ (s.lane l).windows, x.tag = w.tag → x.state = .closing

theorem ClosedAt.of_windows (h : ClosedAt l o w s) (k : (t.lane l).windows = (s.lane l).windows) : ClosedAt l o w t := by
  rwa [ClosedAt, k]

/-- No end of an event brings a window back that is in CLOSING. -/
theorem ClosedAt.endEvent (h : ClosedAt l o w s) : ClosedAt l o w (endEvent m s) := by
  obtain ⟨hw, htags⟩ := h
  have hnone : ∀ x ∈ (s.lane l).windows, x.tag = w.tag → x.state ≠ .queued := fun x hx htag => by
    rw [htags x hx htag]
    decide
  have hgone : GoneOn (s.lane l).windows ((Machine.endEvent m s).lane l).windows := endEvent_goneOn
  refine ⟨hgone.mem hw hnone, fun x hx htag => ?_⟩
  obtain ⟨f, hf, hfixed, hkept⟩ := hgone
  rw [hf] at hx
  obtain ⟨y, hy, rfl⟩ := List.mem_map.mp hx
  have hytag : y.tag = w.tag := (Window.fields_of_fixed (hfixed y)).1.symm.trans htag
  rw [hkept y hy fun x hx hxy => hnone x hx (hxy.trans hytag)]
  exact htags y hy hytag

theorem endWhere_closedAt {f : Window → Bool} (hw : w ∈ (s.lane l).windows) (hf : f w = true)
    (hopen : w.state ≠ .closing) : ClosedAt l o w (endWhere l f o s) := endWhere_ended hw hf hopen

theorem ClosedAt.exists (h : ClosedAt l o w s) :
    ∃ v ∈ (s.lane l).windows, v.tag = w.tag ∧ v.state = .closing ∧ v.outcome = some o :=
  ⟨w.ended o, h.1, rfl, rfl, rfl⟩

/-! ## Steps over a list of lanes -/

section Visit

variable {K : State → State → Prop} {step : Lane → State → State}

theorem foldl_kept (hrefl : ∀ s, K s s) (htrans : ∀ s t u, K s t → K t u → K s u) {ls : List Lane}
    (hstep : ∀ m ∈ ls, ∀ t, K t (step m t)) : K s (ls.foldl (fun t m => step m t) s) := by
  induction ls generalizing s with
  | nil => exact hrefl s
  | cons m r ih =>
    exact htrans s _ _ (hstep m (List.mem_cons_self ..) s) (ih fun k hk => hstep k (List.mem_cons_of_mem _ hk))

/-- Steps over every lane: what each other lane's step keeps is kept up to the lane's own step, and after it. -/
theorem foldl_visit (hrefl : ∀ s, K s s) (htrans : ∀ s t u, K s t → K t u → K s u)
    (hstep : ∀ m, m ≠ l → ∀ t, K t (step m t)) :
    ∃ t, K s t ∧ K (step l t) (Lane.all.foldl (fun t m => step m t) s) := by
  obtain ⟨before, after, hall⟩ := List.append_of_mem (mem_laneAll l)
  have hnodup : Lane.all.Nodup := by decide
  rw [hall, List.nodup_append, List.nodup_cons] at hnodup
  obtain ⟨-, ⟨hafter, -⟩, hdisjoint⟩ := hnodup
  rw [hall, List.foldl_append, List.foldl_cons]
  refine ⟨_, foldl_kept hrefl htrans fun m hm => hstep m ?_, foldl_kept hrefl htrans fun m hm => hstep m ?_⟩
  · exact fun h => hdisjoint m hm l (List.mem_cons_self ..) h
  · rintro rfl
    exact hafter hm

end Visit

/-! ## What the end of an event leaves of a lane line -/

/-- A lane line without its pending command and its pending SHOWs. -/
def LineUnit.base (u : LineUnit) : LineUnit := { u with pendingCmd := none, showOuter := none, showInner := none }

theorem LineUnit.fields_of_base {u v : LineUnit} (h : u.base = v.base) : (∀ x, u.slot x = v.slot x) ∧ u.await = v.await
    ∧ u.nextCycle = v.nextCycle ∧ u.frames = v.frames := by
  simp only [LineUnit.base, LineUnit.mk.injEq] at h
  obtain ⟨houter, hinner, hdrive, -, -, -, hnext, hawait, hframes⟩ := h
  refine ⟨fun x => ?_, hawait, hnext, hframes⟩
  cases x with
  | outer => exact houter
  | inner => exact hinner
  | drive => exact hdrive

theorem onLine_base {f : LineUnit → LineUnit} (hf : (f (s.line l)).base = (s.line l).base) :
    ((s.onLine l f).line m).base = (s.line m).base := by
  by_cases h : m = l
  · subst h
    rw [State.line_onLine_self, hf]
  · rw [State.line_onLine_ne _ _ h]

theorem LineUnit.setShow_base {u : LineUnit} {rd : Reader} {i : Option Indication} : (u.setShow rd i).base = u.base := by
  cases rd <;> rfl

@[simp] theorem showNow_base {rd : Reader} {i : Indication} : ((showNow l rd i s).line m).base = (s.line m).base :=
  (onLine_base LineUnit.setShow_base).trans rfl

@[simp] theorem clearDisplay_base {rd : Reader} : ((clearDisplay l rd s).line m).base = (s.line m).base :=
  (onLine_base LineUnit.setShow_base).trans rfl

@[simp] theorem clearDisplays_base : ((clearDisplays l s).line m).base = (s.line m).base := by simp [clearDisplays]

@[simp] theorem settleDisplay_base {rd : Reader} : ((settleDisplay l rd s).line m).base = (s.line m).base := by
  unfold settleDisplay
  split
  · rfl
  · dsimp only
    repeat' split
    · rfl
    · rfl
    · exact showNow_base

@[simp] theorem settleWanted_base : ((settleWanted l s).line m).base = (s.line m).base := by
  unfold settleWanted
  dsimp only
  split
  · rfl
  · exact (onLine_base rfl).trans rfl

@[simp] theorem endEvent_base : ((endEvent l s).line m).base = (s.line m).base := by
  unfold endEvent
  dsimp only
  rw [settleDisplay_base, settleDisplay_base, settleWanted_base]
  have hcleared (t : State) : (t.onLane l (LaneUnit.settleClear t.time)).line m = t.line m := rfl
  have hline (t : State) : (if (t.lane l).state.inService = true then settleWindows l (t.lane l).windows t else t).line m
      = t.line m := by
    split
    · exact (settleWindows_keeps (b := .line m) (by simp)).mpr rfl
    · rfl
  rw [hcleared, hline]
  rfl

theorem endEvent_slot {x : Slot} : ((endEvent l s).line m).slot x = (s.line m).slot x :=
  (LineUnit.fields_of_base endEvent_base).1 x

theorem clearDisplays_slot {x : Slot} : ((clearDisplays l s).line m).slot x = (s.line m).slot x :=
  (LineUnit.fields_of_base clearDisplays_base).1 x

theorem endEvent_await : ((endEvent l s).line m).await = (s.line m).await := (LineUnit.fields_of_base endEvent_base).2.1

theorem changeState_line {new : LaneState} : (changeState l new s).line m = s.line m :=
  (changeState_keeps (b := .line m) (by simp)).mpr rfl

theorem endWhere_line {f : Window → Bool} : (endWhere l f o s).line m = s.line m :=
  (endWhere_keeps (b := .line m) (by simp)).mpr rfl

end Sys2Proof.Machine
end

section
/-!
PROOFS. SET_LANE and SET_BANK_MODE (R51, R52), the lane mask, isolation and restart (R53, R77, R78, R158), and the other
requests at a lane (R69, R76, R79).
-/
namespace Sys2Proof.Machine

variable {s t u : State} {l m : Lane} {w : Window} {p : Port} {b : Byte} {d : Direction} {former new : Mode}

/-! ## Requests that name a lane -/

theorem atLane_read {f : Lane → State → State} (h : l.num = b.toNat) : atLane p b f s = f l (taken p s) := by
  simp only [atLane, takenByBlock, ← h, Lane.ofNum_num]
  rfl

theorem atLane_large {f : Lane → State → State} (h : 7 < b.toNat) :
    atLane p b f s = answer p .badField [] (taken p s) := by
  simp only [atLane, takenByBlock, Lane.ofNum_large h]
  rfl

theorem exec_setLane {c : LaneChange} (h : Asked p (.setLane b c) s) :
    exec (.setLane p) s = .next (atLane p b (fun l => setLane p l c) s) := by
  refine (running_of_not_resetHeld h.1 _).trans ?_
  simp only [h.2]

theorem exec_isolateLane (h : Asked p (.isolateLane b) s) :
    exec (.isolateLane p) s = .next (atLane p b (isolateLane p) s) := by
  refine (running_of_not_resetHeld h.1 _).trans ?_
  simp only [h.2]

theorem exec_resumeLane (h : Asked p (.resumeLane b) s) :
    exec (.resumeLane p) s = .next (atLane p b (resumeLane p) s) := by
  refine (running_of_not_resetHeld h.1 _).trans ?_
  simp only [h.2]

theorem exec_restartLane (h : Asked p (.restartLane b) s) :
    exec (.restartLane p) s = .next (atLane p b (restartLane p) s) := by
  refine (running_of_not_resetHeld h.1 _).trans ?_
  simp only [h.2]

theorem exec_alarmReset (h : Asked p (.alarmReset b) s) :
    exec (.alarmReset p) s = .next (atLane p b (alarmReset p) s) := by
  refine (running_of_not_resetHeld h.1 _).trans ?_
  simp only [h.2]

theorem exec_readLaneCounters (h : Asked p (.readLaneCounters b) s) :
    exec (.readLaneCounters p) s = .next (atLane p b (readCounters p) s) := by
  refine (running_of_not_resetHeld h.1 _).trans ?_
  simp only [h.2]

theorem exec_laneStatus (h : Asked p (.laneStatus b) s) :
    exec (.laneStatus p) s = .next (atLane p b (fun l t => answer p .ok (laneBody t l) t) s) := by
  refine (running_of_not_resetHeld h.1 _).trans ?_
  simp only [h.2]

/-! ## Modes -/

theorem effectiveMode_of_same (hlane : (t.lane l).settings = (s.lane l).settings) (hbank : t.bank = s.bank) :
    effectiveMode t l = effectiveMode s l := by
  rw [effectiveMode, effectiveMode, hlane, hbank]

theorem closeDirections_firstKept (l : Lane) (f : Direction → Bool) (s : State) : FirstKept s (closeDirections l f s) :=
  (endWhere_firstKept l (fun w => f w.dir && w.state.beforeTransit) .withdrawn s).trans
    (.of_same (by simp [closeDirections]))

theorem modeChanged_firstKept (l : Lane) (former new : Mode) (s : State) : FirstKept s (modeChanged l former new s) := by
  unfold modeChanged
  dsimp only
  split
  · exact (closeDirections_firstKept l _ s).trans (offerPlaces_firstKept l _)
  · exact closeDirections_firstKept l _ s

/-- A window before TRANSIT in a direction that the lane's mode no longer enables goes to CLOSING as WITHDRAWN, with its
posting claimed (R52). -/
theorem modeChanged_closes (hformer : former.enables d = true) (hnew : new.enables d = false)
    (hw : w ∈ (s.lane l).windows) (hd : w.dir = d) (hbefore : w.state.beforeTransit = true) :
    .posting ⟨w.tag, w.cred, w.dir, .withdrawn⟩ ∈ (modeChanged l former new s).arbiter.first
      ∧ ClosedAt l .withdrawn w (modeChanged l former new s) := by
  have hloses : (loses former new w.dir && w.state.beforeTransit) = true := by simp [loses, hd, hformer, hnew, hbefore]
  have hopen : w.state ≠ .closing := WinState.ne_closing_of_beforeTransit hbefore
  have hposting := endWhere_posting (l := l) (o := .withdrawn)
    (f := fun w => loses former new w.dir && w.state.beforeTransit) hw hloses hopen
  have hclosed := endWhere_closedAt (l := l) (o := .withdrawn)
    (f := fun w => loses former new w.dir && w.state.beforeTransit) hw hloses hopen
  have hdirections : FirstKept (endWhere l (fun w => loses former new w.dir && w.state.beforeTransit) .withdrawn s)
      (closeDirections l (loses former new) s) := .of_same (by simp [closeDirections])
  have hwindows : ((closeDirections l (loses former new) s).lane l).windows
      = ((endWhere l (fun w => loses former new w.dir && w.state.beforeTransit) .withdrawn s).lane l).windows := by
    simp [closeDirections]
  unfold modeChanged
  dsimp only
  split
  · exact ⟨offerPlaces_firstKept l _ _ (hdirections _ hposting), (hclosed.of_windows hwindows).of_windows (by simp)⟩
  · exact ⟨hdirections _ hposting, hclosed.of_windows hwindows⟩

theorem backToReady_windows : ((backToReady l s).lane m).windows = (s.lane m).windows := by simp [backToReady]

theorem backToReady_firstKept (l : Lane) (s : State) : FirstKept s (backToReady l s) :=
  (FirstKept.of_same (t := askBoth l .blank (changeState l .ready s)) (by simp)).trans (offerPlaces_firstKept l _)

/-- The end of a SET_LANE: a lane awaiting reset whose latch is now off goes back to READY (R69). -/
def settingsSettled (l : Lane) (x : LaneSettings) (s : State) : State :=
  endEvent l (if (s.lane l).awaitingReset && !x.alarmLatch then backToReady l s else s)

theorem settingsSettled_firstKept (l : Lane) (x : LaneSettings) (s : State) : FirstKept s (settingsSettled l x s) := by
  unfold settingsSettled
  split
  · exact (backToReady_firstKept l s).trans (.of_same (by simp))
  · exact .of_same (by simp)

theorem settingsSettled_closedAt {x : LaneSettings} {o : WinOutcome} (h : ClosedAt l o w s) :
    ClosedAt l o w (settingsSettled l x s) := by
  unfold settingsSettled
  split
  · exact (h.of_windows backToReady_windows).endEvent
  · exact h.endEvent

theorem settingsSettled_core {x : LaneSettings} : ((settingsSettled l x s).lane m).core = (s.lane m).core := by
  rw [settingsSettled, endEvent_core]
  split
  · exact backToReady_core
  · rfl

/-- SET_LANE replied to, and the settings written (R51). -/
def settingsWritten (p : Port) (l : Lane) (x : LaneSettings) (s : State) : State :=
  (answer p .ok [] (taken p s)).onLane l (fun u => { u with settings := x })

theorem settingsWritten_lane {x : LaneSettings} :
    (settingsWritten p l x s).lane l = { s.lane l with settings := x } := State.lane_onLane_self ..

theorem setLane_applied {x : LaneSettings} {c : LaneChange} (hx : laneSettings (s.lane l).settings c = some x) :
    setLane p l c (taken p s) = settingsSettled l x
      (modeChanged l (effectiveMode s l) (effectiveMode (settingsWritten p l x s) l) (settingsWritten p l x s)) := by
  have hread : laneSettings ((taken p s).lane l).settings c = some x := hx
  have hformer : effectiveMode (answer p .ok [] (taken p s)) l = effectiveMode s l := effectiveMode_of_same rfl rfl
  simp only [setLane, hread]
  rw [← hformer]
  rfl

theorem setLane_settings {x : LaneSettings} {c : LaneChange} (hx : laneSettings (s.lane l).settings c = some x) :
    ((setLane p l c (taken p s)).lane l).settings = x := by
  have hcore : ((setLane p l c (taken p s)).lane l).core = ((settingsWritten p l x s).lane l).core := by
    rw [setLane_applied hx, settingsSettled_core, modeChanged_core]
  rw [(LaneUnit.fields_of_core hcore).1, settingsWritten_lane]

/-! ## The bank mode -/

/-- SET_BANK_MODE replied to, and the mode written (R52). -/
def bankModeWritten (p : Port) (k : Mode) (s : State) : State :=
  answer p .ok [] { taken p s with bank := { s.bank with mode := k } }

theorem exec_setBankMode (h : Asked p (.setBankMode b) s) : exec (.setBankMode p) s
    = .next (match Mode.ofNum b.toNat with
      | some k => bankModeChanged s.bank.mode k Lane.all (bankModeWritten p k s)
      | none => answer p .badField [] (taken p s)) := by
  refine (running_of_not_resetHeld h.1 _).trans ?_
  simp only [h.2]
  rfl

theorem Mode.ofNum_num (k : Mode) : Mode.ofNum k.num = some k := by cases k <;> rfl

theorem Mode.ofNum_large {n : Nat} (h : 3 < n) : Mode.ofNum n = none := by
  unfold Mode.ofNum
  split <;> first | omega | rfl

/-- A lane that follows the bank mode takes the change (R52). -/
def followBank (former new : Mode) (l : Lane) (s : State) : State :=
  if (s.lane l).settings.source = .bank then endEvent l (modeChanged l former new s) else s

theorem bankModeChanged_eq {ls : List Lane} :
    bankModeChanged former new ls s = ls.foldl (fun t m => followBank former new m t) s := by
  induction ls generalizing s with
  | nil => rfl
  | cons m r ih => exact ih

theorem followBank_own (h : (s.lane l).settings.source = .own) : followBank former new l s = s := by
  simp [followBank, h]

theorem followBank_lane (h : m ≠ l) : (followBank former new l s).lane m = s.lane m := by
  unfold followBank
  split
  · exact (endEvent_keeps (b := .lane m) (by simp [h])).mpr ((modeChanged_keeps (b := .lane m) (by simp [h])).mpr rfl)
  · rfl

theorem followBank_firstKept (l : Lane) (s : State) : FirstKept s (followBank former new l s) := by
  unfold followBank
  split
  · exact (modeChanged_firstKept l former new s).trans (.of_same (by simp))
  · exact .refl s

theorem followBank_closes (hsource : (s.lane l).settings.source = .bank) (hformer : former.enables d = true)
    (hnew : new.enables d = false) (hw : w ∈ (s.lane l).windows) (hd : w.dir = d) (hbefore : w.state.beforeTransit = true) :
    .posting ⟨w.tag, w.cred, w.dir, .withdrawn⟩ ∈ (followBank former new l s).arbiter.first
      ∧ ClosedAt l .withdrawn w (followBank former new l s) := by
  obtain ⟨hposting, hclosed⟩ := modeChanged_closes hformer hnew hw hd hbefore
  rw [followBank, if_pos hsource, endEvent_arbiter]
  exact ⟨hposting, hclosed.endEvent⟩

/-- What the other lanes' changes keep of a lane and of the operations that wait. -/
def LaneAndFirstKept (l : Lane) (s t : State) : Prop := t.lane l = s.lane l ∧ FirstKept s t

theorem LaneAndFirstKept.refl (s : State) : LaneAndFirstKept l s s := ⟨rfl, .refl s⟩

theorem LaneAndFirstKept.trans (s t u : State) (h : LaneAndFirstKept l s t) (k : LaneAndFirstKept l t u) :
    LaneAndFirstKept l s u := ⟨k.1.trans h.1, h.2.trans k.2⟩

/-- The bank mode's change at one lane: the other lanes leave it alone, and its postings wait on. -/
theorem bankModeChanged_visit (l : Lane) (s : State) : ∃ t, LaneAndFirstKept l s t
    ∧ LaneAndFirstKept l (followBank former new l t) (bankModeChanged former new Lane.all s) := by
  rw [bankModeChanged_eq]
  exact foldl_visit LaneAndFirstKept.refl LaneAndFirstKept.trans fun m hm t =>
    ⟨followBank_lane hm.symm, followBank_firstKept m t⟩

/-- Settles O42: the settings or the bank mode take their value, and the windows of each direction no longer enabled close. -/
theorem modesSet : Obligations.ModesSet := by
  intro p s
  refine ⟨fun b c l h hl => ?_, fun b h => ?_⟩
  · rw [exec_setLane h, atLane_read hl]
    refine ⟨fun hnone => ?_, fun x hx => ⟨_, rfl, setLane_settings hx, ?_, fun m hm => ?_, fun d w hon hoff hw hd hbefore =>
      ?_⟩⟩
    · have hread : laneSettings ((taken p s).lane l).settings c = none := hnone
      simp only [setLane, hread]
    · exact (setLane_keeps (b := .bank) (by simp)).mpr rfl
    · exact (setLane_keeps (b := .lane m) (by simp [hm])).mpr rfl
    · have hbank : (setLane p l c (taken p s)).bank = (settingsWritten p l x s).bank :=
        (setLane_keeps (b := .bank) (by simp)).mpr rfl
      have hmode : effectiveMode (setLane p l c (taken p s)) l = effectiveMode (settingsWritten p l x s) l :=
        effectiveMode_of_same (by rw [setLane_settings hx, settingsWritten_lane]) hbank
      rw [hmode] at hoff
      have hwritten : w ∈ ((settingsWritten p l x s).lane l).windows := by rwa [settingsWritten_lane]
      obtain ⟨hposting, hclosed⟩ := modeChanged_closes hon hoff hwritten hd hbefore
      rw [setLane_applied hx]
      exact ⟨settingsSettled_firstKept l x _ _ hposting, (settingsSettled_closedAt hclosed).exists⟩
  · rw [exec_setBankMode h]
    refine ⟨fun hlarge => by rw [Mode.ofNum_large hlarge], fun k hk => ?_⟩
    rw [← hk, Mode.ofNum_num]
    dsimp only
    refine ⟨_, rfl, ?_, fun l => ?_, fun l hown => ?_, fun l d w hsource hon hoff hw hd hbefore => ?_⟩
    · exact (bankModeChanged_keeps (b := .bank) (by simp)).mpr rfl
    · exact (LaneUnit.fields_of_core bankModeChanged_core).1
    · obtain ⟨t, ⟨hlane, -⟩, hafter, -⟩ := bankModeChanged_visit (former := s.bank.mode) (new := k) l
        (bankModeWritten p k s)
      rw [followBank_own (by rw [hlane]; exact hown)] at hafter
      exact hafter.trans hlane
    · obtain ⟨t, ⟨hlane, -⟩, hafter, hfirst⟩ := bankModeChanged_visit (former := s.bank.mode) (new := k) l
        (bankModeWritten p k s)
      have hlane' : t.lane l = s.lane l := hlane
      obtain ⟨hposting, hclosed⟩ := followBank_closes (s := t) (l := l) (by rw [hlane']; exact hsource) hon hoff
        (by rw [hlane']; exact hw) hd hbefore
      exact ⟨hfirst _ hposting, (hclosed.of_windows (congrArg LaneUnit.windows hafter)).exists⟩

/-! ## Lanes taken out of service and back -/

theorem endAll_posting (hw : w ∈ (s.lane l).windows) (hopen : w.state ≠ .closing) :
    .posting ⟨w.tag, w.cred, w.dir, .aborted⟩ ∈ (endAll l .aborted s).arbiter.first := endWhere_posting hw rfl hopen

/-- The lane's state written, its displays cleared, and its event ended. -/
theorem cleared_state : ((endEvent l (clearDisplays l s)).lane m).state = (s.lane m).state := by
  rw [endEvent_state, (LaneUnit.fields_of_rest clearDisplays_rest).1]

theorem cleared_slot {x : Slot} : ((endEvent l (clearDisplays l s)).line m).slot x = (s.line m).slot x := by
  rw [endEvent_slot, clearDisplays_slot]

theorem cleared_await : ((endEvent l (clearDisplays l s)).line m).await = (s.line m).await := by
  rw [endEvent_await, (LineUnit.fields_of_base clearDisplays_base).2.1]

theorem cleared_arbiter : (endEvent l (clearDisplays l s)).arbiter = s.arbiter := by
  rw [endEvent_arbiter]
  exact (clearDisplays_keeps (b := .arbiter) (by simp)).mpr rfl

theorem maskLane_state : ((maskLane l s).lane l).state = .masked := by
  rw [maskLane, cleared_state]
  exact changeState_state

theorem maskLane_slot {x : Slot} : ((maskLane l s).line l).slot x = SlotRec.off := by
  rw [maskLane, cleared_slot, State.line_onLine_self]
  cases x <;> rfl

theorem maskLane_posting (hw : w ∈ (s.lane l).windows) (hopen : w.state ≠ .closing) :
    .posting ⟨w.tag, w.cred, w.dir, .aborted⟩ ∈ (maskLane l s).arbiter.first := by
  rw [maskLane, cleared_arbiter]
  change _ ∈ (changeState l .masked (endAll l .aborted s)).arbiter.first
  rw [changeState_arbiter]
  exact endAll_posting hw hopen

theorem maskLane_firstKept (l : Lane) (s : State) : FirstKept s (maskLane l s) :=
  (endWhere_firstKept l (fun _ => true) .aborted s).trans (.of_same (by simp [maskLane, endAll]))

theorem unmaskLane_state : ((unmaskLane l s).lane l).state = .enumerating := by
  rw [unmaskLane, cleared_state]
  exact changeState_state

theorem unmaskLane_slot {x : Slot} : ((unmaskLane l s).line l).slot x = SlotRec.reset := by
  rw [unmaskLane, cleared_slot, State.line_onLine_self]
  cases x <;> rfl

/-- A lane whose membership of the mask changes is masked or unmasked (R53). -/
def maskStep (former new : LaneSet) (l : Lane) (s : State) : State :=
  if hasLane new l && !hasLane former l then maskLane l s
  else if hasLane former l && !hasLane new l then unmaskLane l s
  else s

theorem applyMask_eq {former new : LaneSet} {ls : List Lane} :
    applyMask former new ls s = ls.foldl (fun t m => maskStep former new m t) s := by
  induction ls generalizing s with
  | nil => rfl
  | cons m r ih => exact ih

/-- What the other lanes' steps keep of a lane, its line and the operations that wait. -/
def LanePairKept (l : Lane) (s t : State) : Prop := t.lane l = s.lane l ∧ t.line l = s.line l ∧ FirstKept s t

theorem LanePairKept.refl (s : State) : LanePairKept l s s := ⟨rfl, rfl, .refl s⟩

theorem LanePairKept.trans (s t u : State) (h : LanePairKept l s t) (k : LanePairKept l t u) : LanePairKept l s u :=
  ⟨k.1.trans h.1, k.2.1.trans h.2.1, h.2.2.trans k.2.2⟩

theorem maskStep_kept {former new : LaneSet} (h : m ≠ l) (s : State) : LanePairKept l s (maskStep former new m s) := by
  unfold maskStep
  split
  · exact ⟨(maskLane_keeps (b := .lane l) (by simp [h.symm])).mpr rfl,
      (maskLane_keeps (b := .line l) (by simp [h.symm])).mpr rfl, maskLane_firstKept m s⟩
  · split
    · exact ⟨(unmaskLane_keeps (b := .lane l) (by simp [h.symm])).mpr rfl,
        (unmaskLane_keeps (b := .line l) (by simp [h.symm])).mpr rfl,
        .of_same (by simp [unmaskLane])⟩
    · exact .refl s

theorem applyMask_visit {former new : LaneSet} (l : Lane) (s : State) : ∃ t, LanePairKept l s t
    ∧ LanePairKept l (maskStep former new l t) (applyMask former new Lane.all s) := by
  rw [applyMask_eq]
  exact foldl_visit LanePairKept.refl LanePairKept.trans fun m hm t => maskStep_kept hm t

/-- SET_LANE_MASK replied to, and the mask written (R53). -/
def maskWritten (p : Port) (x : LaneSet) (s : State) : State :=
  answer p .ok [] { taken p s with bank := { s.bank with mask := x } }

theorem exec_setLaneMask {x : LaneSet} (h : Asked p (.setLaneMask x) s) : exec (.setLaneMask p) s
    = .next (applyMask s.bank.mask x Lane.all (maskWritten p x s)) := by
  refine (running_of_not_resetHeld h.1 _).trans ?_
  simp only [h.2]
  rfl

theorem unaddressed_iff {st : LaneState} : st.unaddressed = true ↔ st = .masked ∨ st = .isolated := by
  cases st <;> simp [LaneState.unaddressed]

/-- A lane isolated, with the line's slots held where they stand (R77, R158). -/
def isolated (p : Port) (l : Lane) (s : State) : State :=
  endEvent l (clearDisplays l ((changeState l .isolated (endAll l .aborted (answer p .ok [] s))).onLine l
    (LineUnit.isolate s.time)))

theorem isolateLane_refused (h : (s.lane l).state.unaddressed = true) : isolateLane p l s = answer p .laneState [] s :=
  if_pos h

theorem restartLane_refused (h : (s.lane l).state.unaddressed = true) : restartLane p l s = answer p .laneState [] s :=
  if_pos h

theorem resumeLane_refused (h : (s.lane l).state ≠ .isolated) : resumeLane p l s = answer p .laneState [] s := if_neg h

theorem onLine_lane {f : LineUnit → LineUnit} : (s.onLine l f).lane m = s.lane m := rfl

theorem isolateLane_done (h : (s.lane l).state.unaddressed = false) : isolateLane p l s = isolated p l s := by
  have htime : (changeState l .isolated (endAll l .aborted (answer p .ok [] s))).time = s.time :=
    (changeState_keeps (b := .time) (by simp)).mpr ((endAll_keeps (b := .time) (by simp)).mpr rfl)
  simp only [isolateLane, h, htime]
  rfl

/-- A lane restarted, with no body and no obstruction in it (R78, R158). -/
def restarted (p : Port) (l : Lane) (s : State) : State :=
  endEvent l (clearDisplays l (((changeState l .enumerating (endAll l .aborted (answer p .ok [] s))).onLane l
    (fun u => { u with zones := ⟨false, false, false⟩, obstruction := false, obstructDue := none })).onLine l
      LineUnit.restart))

theorem restartLane_done (h : (s.lane l).state.unaddressed = false) : restartLane p l s = restarted p l s := by
  simp only [restartLane, h]
  rfl

/-- A lane resumed (R77, R158). -/
def resumed (p : Port) (l : Lane) (s : State) : State :=
  endEvent l (clearDisplays l ((changeState l .enumerating (answer p .ok [] s)).onLine l (LineUnit.resume s.time)))

theorem resumeLane_done (h : (s.lane l).state = .isolated) : resumeLane p l s = resumed p l s := by
  have htime : (changeState l .enumerating (answer p .ok [] s)).time = s.time :=
    (changeState_keeps (b := .time) (by simp)).mpr rfl
  simp only [resumeLane, h, htime, if_true]
  rfl

/-- Each window not in CLOSING is aborted by a change of state out of service (R53, R77, R78). -/
theorem aborted_posting {new : LaneState} (hw : w ∈ (s.lane l).windows) (hopen : w.state ≠ .closing) :
    .posting ⟨w.tag, w.cred, w.dir, .aborted⟩
      ∈ (changeState l new (endAll l .aborted (answer p .ok [] s))).arbiter.first := by
  rw [changeState_arbiter]
  exact endAll_posting hw hopen

theorem LineUnit.resume_slot {n : Nat} {v : LineUnit} {x : Slot} : (v.resume n).slot x = (v.slot x).resume n := by
  cases x <;> rfl

theorem LineUnit.restart_slot {v : LineUnit} {x : Slot} : v.restart.slot x = (v.slot x).restart := by cases x <;> rfl

/-- Settles O43: each lane of the mask's change, and the three requests by the lane's state. -/
theorem lanesInAndOut : Obligations.LanesInAndOut := by
  intro p s
  refine ⟨fun x h => ⟨_, exec_setLaneMask h, (applyMask_keeps (b := .bank) (by simp)).mpr rfl, fun l => ?_⟩,
    fun b l hl => ⟨fun h => ?_, fun h => ?_, fun h => ?_⟩⟩
  · obtain ⟨t, ⟨hlane, hline, -⟩, hlane', hline', hfirst⟩ := applyMask_visit (former := s.bank.mask) (new := x) l
      (maskWritten p x s)
    have htlane : t.lane l = s.lane l := hlane
    refine ⟨fun hsame => ?_, fun hnew hformer => ?_, fun hnew hformer => ?_⟩
    · have hstep : maskStep s.bank.mask x l t = t := by simp [maskStep, hsame]
      rw [hstep] at hlane' hline'
      exact ⟨hlane'.trans hlane, hline'.trans hline⟩
    · have hstep : maskStep s.bank.mask x l t = maskLane l t := by simp [maskStep, hnew, hformer]
      rw [hstep] at hlane' hline' hfirst
      refine ⟨by rw [hlane', maskLane_state], fun y => by rw [hline', maskLane_slot], fun w hw hopen => hfirst _ ?_⟩
      exact maskLane_posting (by rw [htlane]; exact hw) hopen
    · have hstep : maskStep s.bank.mask x l t = unmaskLane l t := by simp [maskStep, hnew, hformer]
      rw [hstep] at hlane' hline'
      exact ⟨by rw [hlane', unmaskLane_state], fun y => by rw [hline', unmaskLane_slot]⟩
  · rw [exec_isolateLane h, atLane_read hl]
    refine ⟨fun hout => ?_, fun hmasked hisolated => ?_⟩
    · rw [isolateLane_refused (s := taken p s) (unaddressed_iff.mpr hout)]
    · rw [isolateLane_done (s := taken p s) (unaddressed_eq_false_iff.mpr ⟨hmasked, hisolated⟩)]
      refine ⟨_, rfl, ?_, ?_, fun w hw hopen => ?_⟩
      · exact cleared_state.trans changeState_state
      · rw [isolated, cleared_await, State.line_onLine_self]
        rfl
      · rw [isolated, cleared_arbiter]
        exact aborted_posting (s := taken p s) hw hopen
  · rw [exec_resumeLane h, atLane_read hl]
    refine ⟨fun hnot => ?_, fun hisolated => ?_⟩
    · rw [resumeLane_refused (s := taken p s) hnot]
    · rw [resumeLane_done (s := taken p s) hisolated]
      refine ⟨_, rfl, cleared_state.trans changeState_state, fun x hx => ?_⟩
      rw [resumed, cleared_slot, State.line_onLine_self, LineUnit.resume_slot, changeState_line]
      exact if_neg hx
  · rw [exec_restartLane h, atLane_read hl]
    refine ⟨fun hout => ?_, fun hmasked hisolated => ?_⟩
    · rw [restartLane_refused (s := taken p s) (unaddressed_iff.mpr hout)]
    · rw [restartLane_done (s := taken p s) (unaddressed_eq_false_iff.mpr ⟨hmasked, hisolated⟩)]
      refine ⟨_, rfl, ?_, fun x => ?_, fun w hw hopen => ?_⟩
      · rw [restarted, cleared_state, onLine_lane, State.lane_onLane_self]
        exact changeState_state
      · rw [restarted, cleared_slot, State.line_onLine_self, LineUnit.restart_slot]
        have hline : ((changeState l .enumerating (endAll l .aborted (answer p .ok [] (taken p s)))).onLane l
            (fun u => { u with zones := ⟨false, false, false⟩, obstruction := false, obstructDue := none })).line l
              = s.line l := changeState_line.trans endWhere_line
        rw [hline]
        rfl
      · rw [restarted, cleared_arbiter]
        exact aborted_posting (s := taken p s) hw hopen

/-! ## Alarm reset, counters and status -/

theorem alarmReset_refused (h : (s.lane l).state ≠ .alarm) : alarmReset p l s = answer p .laneState [] s := if_pos h

theorem alarmReset_occupied (hstate : (s.lane l).state = .alarm) (h : (s.lane l).windows ≠ []
    ∨ (s.lane l).zones.empty = false ∨ (s.lane l).obstruction = true) :
    alarmReset p l s = answer p .laneOccupied [] s := by
  have hoccupied : (!(s.lane l).windows.isEmpty || !(s.lane l).zones.empty || (s.lane l).obstruction) = true := by
    rcases h with h | h | h <;> simp [h]
  simp only [alarmReset, hstate, hoccupied, ne_eq, not_true, if_true, if_false]

/-- A lane awaiting reset goes back to READY, and any other alarm is acknowledged (R69). -/
def resetSettled (l : Lane) (s : State) : State :=
  endEvent l (if (s.lane l).awaitingReset then backToReady l s else s.onLane l (fun u => { u with acknowledged := true }))

theorem resetSettled_ready (h : (s.lane l).awaitingReset = true) : resetSettled l s = endEvent l (backToReady l s) := by
  rw [resetSettled, if_pos h]

theorem resetSettled_acknowledged (h : (s.lane l).awaitingReset = false) :
    resetSettled l s = endEvent l (s.onLane l (fun u => { u with acknowledged := true })) := by
  rw [resetSettled, if_neg (by simp [h])]

theorem alarmReset_done (hstate : (s.lane l).state = .alarm) (hwindows : (s.lane l).windows = [])
    (hzones : (s.lane l).zones.empty = true) (hclear : (s.lane l).obstruction = false) : alarmReset p l s
      = resetSettled l (answer p .ok [] s) := by
  simp only [alarmReset, hstate, hwindows, hzones, hclear]
  rfl

theorem backToReady_reply : (backToReady l s).mail.replies.get p = s.mail.replies.get p :=
  (backToReady_keeps (b := .replies p) (by simp)).mpr rfl

theorem endEvent_reply : (endEvent l s).mail.replies.get p = s.mail.replies.get p :=
  (endEvent_keeps (b := .replies p) (by simp)).mpr rfl

/-- ALARM_RESET in an empty lane (R69). -/
theorem resetSettled_spec (hstate : (s.lane l).state = .alarm) :
    (resetSettled l (answer p .ok [] s)).mail.replies.get p = some (replyBytes .ok [])
      ∧ ((s.lane l).awaitingReset = true → ((resetSettled l (answer p .ok [] s)).lane l).state = .ready)
      ∧ ((s.lane l).awaitingReset = false → ((resetSettled l (answer p .ok [] s)).lane l).state = .alarm
        ∧ ((resetSettled l (answer p .ok [] s)).lane l).acknowledged = true) := by
  cases hawaiting : (s.lane l).awaitingReset with
  | true =>
    rw [resetSettled_ready (s := answer p .ok [] s) hawaiting, endEvent_reply, backToReady_reply, endEvent_state]
    exact ⟨answer_reply, fun _ => backToReady_state, nofun⟩
  | false =>
    rw [resetSettled_acknowledged (s := answer p .ok [] s) hawaiting, endEvent_reply, endEvent_state]
    obtain ⟨-, -, -, -, -, -, -, -, -, -, -, -, hacknowledged, -⟩ := LaneUnit.fields_of_rest (endEvent_rest (l := l)
      (m := l) (s := (answer p .ok [] s).onLane l (fun u => { u with acknowledged := true })))
    rw [hacknowledged, State.lane_onLane_self]
    exact ⟨answer_reply, nofun, fun _ => ⟨hstate, rfl⟩⟩

/-- Settles O44: the lane that the request names, then ALARM_RESET by the lane's state and what stands in it. -/
theorem laneRequests : Obligations.LaneRequests := by
  intro p b s
  refine ⟨fun hlarge => ⟨fun c h => ?_, fun h => ?_, fun h => ?_, fun h => ?_, fun h => ?_, fun h => ?_, fun h => ?_⟩,
    fun l hl => ⟨fun h => ?_, fun h => ?_, fun h => ?_⟩⟩
  · rw [exec_setLane h, atLane_large hlarge]
  · rw [exec_isolateLane h, atLane_large hlarge]
  · rw [exec_resumeLane h, atLane_large hlarge]
  · rw [exec_restartLane h, atLane_large hlarge]
  · rw [exec_alarmReset h, atLane_large hlarge]
  · rw [exec_readLaneCounters h, atLane_large hlarge]
  · rw [exec_laneStatus h, atLane_large hlarge]
  · rw [exec_alarmReset h, atLane_read hl]
    refine ⟨fun hnot => congrArg _ (alarmReset_refused (s := taken p s) hnot), fun hstate => ⟨fun hoccupied =>
      congrArg _ (alarmReset_occupied (s := taken p s) hstate hoccupied), fun hwindows hzones hclear => ⟨_, rfl, ?_⟩⟩⟩
    rw [alarmReset_done (s := taken p s) hstate hwindows hzones hclear]
    exact resetSettled_spec hstate
  · rw [exec_readLaneCounters h, atLane_read hl]
    rfl
  · rw [exec_laneStatus h, atLane_read hl]
    refine ⟨fun hmasked => ?_, fun _ => rfl⟩
    have hbody : laneBody (taken p s) l = [0] := by
      have hstate : ((taken p s).lane l).state = .masked := hmasked
      simp only [laneBody, hstate]
      rfl
    rw [hbody]

end Sys2Proof.Machine
end

section
/-!
PROOFS. The dispatch unit: calls taken, answered and timed out, its settings and status, and what its lanes take of it (R75,
R98 to R109).
-/
namespace Sys2Proof.Machine

variable {s t u : State} {l m : Lane} {g : Tag} {w : Window} {p : Port} {c : CallState} {car : Option Nat}

/-! ## The window a tag names -/

theorem findWindow_of_windows (h : (t.lane g.lane).windows = (s.lane g.lane).windows) : findWindow t g = findWindow s g := by
  rw [findWindow, findWindow, h]

theorem findWindow_tag (h : findWindow s g = some w) : w.tag = g := by simpa using List.find?_some h

/-- A change of windows that keeps their tags. -/
theorem find_map_tag {f : Window → Window} (hf : ∀ x, (f x).tag = x.tag) (ws : List Window) :
    (ws.map f).find? (fun x => x.tag == g) = (ws.find? (fun x => x.tag == g)).map f := by
  have htest : ((fun x : Window => x.tag == g) ∘ f) = fun x => x.tag == g := funext fun x => by simp [hf]
  rw [List.find?_map, htest]

theorem findWindow_onWindow {f : Window → Window} (hf : ∀ x, (f x).tag = x.tag) :
    findWindow (onWindow g.lane g f s) g = (findWindow s g).map f := by
  rw [findWindow, onWindow_windows, mapWindow, find_map_tag (fun x => by split <;> simp [hf])]
  cases hfound : findWindow s g with
  | none => rw [show (s.lane g.lane).windows.find? (fun x => x.tag == g) = none from hfound]; rfl
  | some w =>
    rw [show (s.lane g.lane).windows.find? (fun x => x.tag == g) = some w from hfound]
    simp [findWindow_tag hfound]

theorem leaveAssigning_find : (findWindow (leaveAssigning g.lane w s) g).map Window.fixed
    = (findWindow s g).map Window.fixed := by
  unfold leaveAssigning
  split
  · rw [findWindow, paceTest_windows, mapWindow]
    have hfixed (x : Window) : (if x.tag == w.tag then Window.tested s g.lane w.dir x else x).fixed = x.fixed := by
      split
      · exact Window.tested_fixed
      · rfl
    rw [find_map_tag (fun x => (Window.fields_of_fixed (hfixed x)).1), Option.map_map]
    exact congrFun (congrArg Option.map (funext hfixed)) _
  · rfl

theorem endEvent_find : (findWindow (endEvent l s) g).map Window.fixed = (findWindow s g).map Window.fixed :=
  endEvent_goneOn.find

/-! ## A call settled -/

/-- A window with its call settled (R57, R100). -/
def Window.settled (c : CallState) (car : Option Nat) (w : Window) : Window :=
  { w with call := c, car := car, callDue := none }

theorem settleCall_find (h : findWindow s g = some w) :
    (findWindow (settleCall g.lane w c car s) g).map Window.fixed = some (w.settled c car).fixed := by
  have htag := findWindow_tag h
  have hset : findWindow (onWindow g.lane g (Window.settled c car) s) g = some (w.settled c car) := by
    rw [findWindow_onWindow (f := Window.settled c car) fun _ => rfl, h]
    rfl
  rw [settleCall, leaveAssigning_find, htag]
  exact congrArg (Option.map Window.fixed) hset

/-- The settled window after the lane's event (R100). -/
theorem settled_of_find (h : (findWindow u g).map Window.fixed = some (w.settled c car).fixed) :
    ∃ v, findWindow u g = some v ∧ v.call = c ∧ v.car = car ∧ v.callDue = none ∧ v.cred = w.cred := by
  obtain ⟨v, hv, hfixed⟩ := Option.map_eq_some_iff.mp h
  obtain ⟨-, hcred, -, -, -, -, -, -, hcall, hcar, -, hdue⟩ := Window.fields_of_fixed hfixed
  exact ⟨v, hv, hcall, hcar, hdue, hcred⟩

theorem settleCall_mail : (settleCall l w c car s).mail = s.mail := by
  have hleft (x : State) : (leaveAssigning l w x).mail = x.mail := by
    unfold leaveAssigning paceTest
    repeat' split
    all_goals rfl
  rw [settleCall, hleft]
  rfl

theorem settleCall_stamp : (settleCall l w c car s).stamp = s.stamp := by
  have hclock : (settleCall l w c car s).clock = s.clock := (settleCall_keeps (b := .clock) (by simp)).mpr rfl
  rw [State.stamp, State.stamp, hclock]

theorem settleCall_dispatch : (settleCall l w c car s).dispatch = s.dispatch :=
  (settleCall_keeps (b := .dispatch) (by simp)).mpr rfl

/-! ## What the end of an event leaves of the mail -/

theorem endEvent_mail : (endEvent l s).mail = s.mail := by
  have hdisplay (rd : Reader) (x : State) : (settleDisplay l rd x).mail = x.mail := by
    unfold settleDisplay
    split
    · rfl
    · dsimp only
      repeat' split
      all_goals rfl
  have hwindow (y : Window) (x : State) : (startWindow l y x).mail = x.mail := by
    unfold startWindow paceTest
    repeat' split
    all_goals rfl
  have hwindows (ws : List Window) (x : State) : (settleWindows l ws x).mail = x.mail := by
    induction ws generalizing x with
    | nil => rfl
    | cons y r ih =>
      rw [settleWindows, ih]
      split
      · exact hwindow y x
      · rfl
  have hwanted (x : State) : (settleWanted l x).mail = x.mail := by
    unfold settleWanted
    dsimp only
    split <;> rfl
  unfold endEvent
  dsimp only
  rw [hdisplay, hdisplay, hwanted]
  have hserved (x : State) : (if (x.lane l).state.inService = true then settleWindows l (x.lane l).windows x else x).mail
      = x.mail := by
    split
    · exact hwindows _ x
    · rfl
  exact hserved _

/-! ## TAKE_CALLS -/

theorem exec_takeCalls (h : Asked p .takeCalls s) : exec (.takeCalls p) s = .next (takeCalls p (taken p s)) := by
  refine (running_of_not_resetHeld h.1 _).trans ?_
  simp only [h.2]
  rfl

theorem markTaken_dispatch {xs : List CallRec} : (markTaken xs s).dispatch = s.dispatch :=
  (markTaken_keeps (b := .dispatch) (by simp)).mpr rfl

/-! ## ASSIGN and DECLINE -/

/-- An answer to a call that is acted on: the call settled with its record, the reply and the lane's event (R104, R105). -/
def callAnswered (p : Port) (g : Tag) (w : Window) (c : CallState) (car : Option Nat) (k : DispatchCode) (d : Detail)
    (s : State) : State :=
  endEvent g.lane (answer p .ok [] (dispatchRecord k g (some w.cred) d (settleCall g.lane w c car s)))

theorem assignCar_acted {x : Byte} (h : answerableWindow s g = some w) : assignCar p g x s = indicate g (.car x.toNat)
    (callAnswered p g w .answered (some x.toNat) .assigned (.items {} [x]) s) := by
  simp only [assignCar, h]
  rfl

theorem assignCar_stale {x : Byte} (h : answerableWindow s g = none) : assignCar p g x s = staleAnswer p g [x] s := by
  simp only [assignCar, h]

theorem declineCall_acted (h : answerableWindow s g = some w) : declineCall p g s = indicate g .seePanel
    (callAnswered p g w .declined none .declined .none s) := by
  simp only [declineCall, h]
  rfl

theorem declineCall_stale (h : answerableWindow s g = none) : declineCall p g s = staleAnswer p g [] s := by
  simp only [declineCall, h]

theorem findWindow_of_answerable (h : answerableWindow s g = some w) : findWindow s g = some w := by
  unfold answerableWindow at h
  split at h
  · rename_i x hx
    split at h
    · rw [hx, h]
    · contradiction
  · contradiction

theorem callAnswered_find {k : DispatchCode} {d : Detail} (h : answerableWindow s g = some w) :
    ∃ v, findWindow (callAnswered p g w c car k d s) g = some v ∧ v.call = c ∧ v.car = car ∧ v.callDue = none
      ∧ v.cred = w.cred :=
  settled_of_find (endEvent_find.trans (settleCall_find (findWindow_of_answerable h)))

theorem callAnswered_mail {k : DispatchCode} {d : Detail} : (callAnswered p g w c car k d s).mail
    = (answer p .ok [] (handOver .dispatch
        { time := s.stamp, code := .dispatch k, lane := some g.lane, tag := some g, cred := some w.cred, detail := d } s)).mail := by
  rw [callAnswered, endEvent_mail]
  simp only [answer, dispatchRecord, handOver, State.onMail, settleCall_mail, settleCall_stamp]

theorem exec_assign {lane serial x : Byte} (h : Asked p (.assign lane serial x) s) : exec (.assign p) s
    = .next (match Lane.ofNum lane.toNat with
      | some l => if x.toNat > 31 then answer p .badField [] (taken p s) else assignCar p ⟨l, serial⟩ x (taken p s)
      | none => answer p .badField [] (taken p s)) := by
  refine (running_of_not_resetHeld h.1 _).trans ?_
  simp only [h.2]
  rfl

theorem exec_decline {lane serial : Byte} (h : Asked p (.decline lane serial) s) : exec (.decline p) s
    = .next (match Lane.ofNum lane.toNat with
      | some l => declineCall p ⟨l, serial⟩ (taken p s)
      | none => answer p .badField [] (taken p s)) := by
  refine (running_of_not_resetHeld h.1 _).trans ?_
  simp only [h.2]
  rfl

/-- Settles O48: the records taken, and an answer by the window it names. -/
theorem callsTakenAndAnswered : Obligations.CallsTakenAndAnswered := by
  intro p s
  refine ⟨fun h => ⟨_, exec_takeCalls h, ?_, ?_⟩, fun lane serial x h => ⟨fun hbad => ?_, fun l hl hx => ⟨fun hnone => ?_,
    fun w hw => ?_⟩⟩, fun lane serial h => ⟨fun hbad => ?_, fun l hl => ⟨fun hnone => ?_, fun w hw => ?_⟩⟩⟩
  · change (markTaken _ (setCalls _ (taken p s))).dispatch = _
    rw [markTaken_dispatch, setCalls_dispatch]
    rfl
  · refine answer_reply.trans ?_
    rw [callsBody, List.length_drop]
    rfl
  · rw [exec_assign h]
    by_cases hlane : 7 < lane.toNat
    · rw [Lane.ofNum_large hlane]
    · have hx : x.toNat > 31 := hbad.resolve_left hlane
      simp only [hx, if_true]
      split <;> rfl
  · rw [exec_assign h, ← hl, Lane.ofNum_num]
    dsimp only
    rw [if_neg (by omega), assignCar_stale (s := taken p s) hnone]
    exact ⟨_, rfl, rfl, answer_reply, rfl⟩
  · rw [exec_assign h, ← hl, Lane.ofNum_num]
    dsimp only
    rw [if_neg (by omega), assignCar_acted (s := taken p s) hw]
    obtain ⟨v, hv, hcall, hcar, hdue, hcred⟩ := callAnswered_find (p := p) (c := .answered) (car := some x.toNat)
      (k := .assigned) (d := .items {} [x]) (s := taken p s) hw
    refine ⟨_, v, rfl, hv, hcall, hcar, hdue, hcred, ?_, ?_, ?_⟩
    · change (callAnswered p _ w _ _ _ _ (taken p s)).mail.replies.get p = _
      rw [callAnswered_mail]
      exact answer_reply
    · change (callAnswered p _ w _ _ _ _ (taken p s)).mail.indications ++ _ = _
      rw [callAnswered_mail]
      rfl
    · change (callAnswered p _ w _ _ _ _ (taken p s)).mail.records = _
      rw [callAnswered_mail]
      rfl
  · rw [exec_decline h, Lane.ofNum_large hbad]
  · rw [exec_decline h, ← hl, Lane.ofNum_num]
    dsimp only
    rw [declineCall_stale (s := taken p s) hnone]
    exact ⟨_, rfl, rfl, answer_reply, rfl⟩
  · rw [exec_decline h, ← hl, Lane.ofNum_num]
    dsimp only
    rw [declineCall_acted (s := taken p s) hw]
    obtain ⟨v, hv, hcall, hcar, hdue, hcred⟩ := callAnswered_find (p := p) (c := .declined) (car := none) (k := .declined)
      (d := .none) (s := taken p s) hw
    refine ⟨_, v, rfl, hv, hcall, hcar, hdue, hcred, ?_, ?_, ?_⟩
    · change (callAnswered p _ w _ _ _ _ (taken p s)).mail.replies.get p = _
      rw [callAnswered_mail]
      exact answer_reply
    · change (callAnswered p _ w _ _ _ _ (taken p s)).mail.indications ++ _ = _
      rw [callAnswered_mail]
      rfl
    · change (callAnswered p _ w _ _ _ _ (taken p s)).mail.records = _
      rw [callAnswered_mail]
      rfl

/-! ## Settings, status and the call timer -/

theorem exec_setDispatch {d h t : Option Byte} (hasked : Asked p (.setDispatch d h t) s) :
    exec (.setDispatch p) s = .next (setDispatch p d h t (taken p s)) := by
  refine (running_of_not_resetHeld hasked.1 _).trans ?_
  simp only [hasked.2]
  rfl

theorem exec_dispatchStatus (h : Asked p .dispatchStatus s) :
    exec (.dispatchStatus p) s = .next (dispatchStatus p (taken p s)) := by
  refine (running_of_not_resetHeld h.1 _).trans ?_
  simp only [h.2]
  rfl

/-- A SET_DISPATCH without a timeout leaves it as it is (R98). -/
theorem dispatchSettings_timeout {d h : Option Byte} {x y : DispatchUnit} (hx : dispatchSettings y d h none = some x) :
    x.timeout = y.timeout := by
  simp only [dispatchSettings, newField, Option.bind_eq_bind, Option.bind_eq_some_iff, Option.some.injEq] at hx
  obtain ⟨-, -, -, -, -, rfl, rfl⟩ := hx
  rfl

theorem setDispatch_done {d h t : Option Byte} {x : DispatchUnit} (hx : dispatchSettings s.dispatch d h t = some x) :
    (setDispatch p d h t s).dispatch = x ∧ (setDispatch p d h t s).mail.replies.get p = some (replyBytes .ok [])
      ∧ (setDispatch p d h t s).mail.holds = s.mail.holds ++ (if x.holdForCar = s.dispatch.holdForCar then []
          else Lane.all.map (fun l => (l, x.holdForCar))) := by
  unfold setDispatch
  rw [hx]
  dsimp only
  split
  · exact ⟨rfl, answer_reply, (List.append_nil _).symm⟩
  · exact ⟨rfl, answer_reply, rfl⟩

theorem exec_callTimerExpiry (hrun : s.resetHeld = false) (h : findWindow s g = some w) :
    exec (.callTimerExpiry g) s = .next (if s.due w.callDue then timeoutCall g.lane w s else s) := by
  refine (running_of_not_resetHeld hrun _).trans ?_
  simp only [h]

/-- A call that times out: the call settled, with its record and the lane's event (R103). -/
def callLapsed (g : Tag) (w : Window) (c : CallState) (k : DispatchCode) (s : State) : State :=
  endEvent g.lane (dispatchRecord k g (some w.cred) (floorDetail w.floor) (settleCall g.lane w c w.car s))

theorem timeoutCall_posted (htag : w.tag = g) (h : w.call = .posted) :
    timeoutCall g.lane w s = indicate g .seePanel (callLapsed g w .expired .expired (dropCall g s)) := by
  subst htag
  simp only [timeoutCall, h]
  rfl

theorem timeoutCall_taken (htag : w.tag = g) (h : w.call = .taken) :
    timeoutCall g.lane w s = indicate g .seePanel (callLapsed g w .timedOut .timedOut s) := by
  subst htag
  simp only [timeoutCall, h]
  rfl

theorem callLapsed_find {k : DispatchCode} (h : findWindow s g = some w) :
    ∃ v, findWindow (callLapsed g w c k s) g = some v ∧ v.call = c ∧ v.callDue = none := by
  have hfound : (findWindow (callLapsed g w c k s) g).map Window.fixed = some (w.settled c w.car).fixed :=
    endEvent_find.trans (settleCall_find h)
  obtain ⟨v, hv, hcall, -, hdue, -⟩ := settled_of_find hfound
  exact ⟨v, hv, hcall, hdue⟩

theorem callLapsed_dispatch {k : DispatchCode} : (callLapsed g w c k s).dispatch = s.dispatch := by
  have hended (x : State) : (endEvent g.lane x).dispatch = x.dispatch := (endEvent_keeps (b := .dispatch) (by simp)).mpr rfl
  rw [callLapsed, hended]
  exact settleCall_dispatch

theorem callLapsed_indications {k : DispatchCode} : (callLapsed g w c k s).mail.indications = s.mail.indications := by
  rw [callLapsed, endEvent_mail]
  change (settleCall g.lane w c w.car s).mail.indications = _
  rw [settleCall_mail]

theorem dropCall_mem {a : Cred} {f : Nat} {n : Stamp} : CallRec.call g a f n ∉ (dropCall g s).dispatch.queue := by
  rw [dropCall, setCalls_dispatch]
  simp [isCallOf]

theorem setCalls_indications {q : List CallRec} : (setCalls q s).mail.indications = s.mail.indications := by
  unfold setCalls
  dsimp only
  split <;> rfl

theorem dropCall_find : findWindow (dropCall g s) g = findWindow s g := by
  refine findWindow_of_windows ?_
  rw [dropCall, setCalls_lane]

/-! ## What the lanes take of the dispatch unit -/

/-- An indication taken at its lane: discarded for a window in CLOSING or a tag that names none (R75, R100). -/
def indicationTaken (g : Tag) (i : Indication) (s : State) : State :=
  endEvent g.lane (match findWindow s g with
    | some w => if w.state = .closing then s else ask g.lane w.dir.reader i s
    | none => s)

theorem exec_dispatchIndication {i : Indication} {before after : List (Tag × Indication)} (hrun : s.resetHeld = false)
    (hm : s.mail.indications = before ++ (g, i) :: after) (hbefore : ∀ y ∈ before, y.1.lane ≠ g.lane) :
    exec (.dispatchIndication g.lane) s
      = .next (indicationTaken g i (s.onMail (fun m => { m with indications := before ++ after }))) := by
  refine (running_of_not_resetHeld hrun _).trans ?_
  rw [hm, takeFirst_split (p := fun y : Tag × Indication => y.1.lane == g.lane) (beq_self_eq_true g.lane) fun y hy =>
    beq_eq_false_iff_ne.mpr (hbefore y hy)]
  rfl

theorem indicationTaken_discarded {i : Indication}
    (h : findWindow s g = none ∨ ∃ w, findWindow s g = some w ∧ w.state = .closing) :
    indicationTaken g i s = endEvent g.lane s := by
  rcases h with h | ⟨w, h, hclosing⟩
  · simp only [indicationTaken, h]
  · simp only [indicationTaken, h, hclosing, if_true]

theorem indicationTaken_shown {i : Indication} (h : findWindow s g = some w) (hopen : w.state ≠ .closing) :
    indicationTaken g i s = endEvent g.lane (ask g.lane w.dir.reader i s) := by
  simp only [indicationTaken, h, hopen, if_false]

theorem indicationTaken_mail {i : Indication} : (indicationTaken g i s).mail = s.mail := by
  rw [indicationTaken, endEvent_mail]
  split
  · split <;> rfl
  · rfl

/-- A change of hold-for-car taken at a lane (R106). -/
def holdTaken (l : Lane) (on : Bool) (s : State) : State :=
  endEvent l (if on then s else leaveAll l (s.lane l).windows s)

theorem exec_holdForCarReport {on : Bool} {before after : List (Lane × Bool)} (hrun : s.resetHeld = false)
    (hm : s.mail.holds = before ++ (l, on) :: after) (hbefore : ∀ y ∈ before, y.1 ≠ l) :
    exec (.holdForCarReport l) s = .next (holdTaken l on (s.onMail (fun m => { m with holds := before ++ after }))) := by
  refine (running_of_not_resetHeld hrun _).trans ?_
  rw [hm, takeFirst_split (p := fun y : Lane × Bool => y.1 == l) (beq_self_eq_true l) fun y hy =>
    beq_eq_false_iff_ne.mpr (hbefore y hy)]
  rfl

theorem holdTaken_keeps {b : Block} {on : Bool} (h : b ≠ .lane l) (k : b ≠ .line l) : b.same s (holdTaken l on s) := by
  unfold holdTaken
  split
  · exact (endEvent_keeps (by simp [h, k])).mpr (by simp)
  · exact (endEvent_keeps (by simp [h, k])).mpr ((leaveAll_keeps (by simp [h])).mpr (by simp))

theorem holdTaken_length {on : Bool} : ((holdTaken l on s).lane l).windows.length = (s.lane l).windows.length := by
  rw [holdTaken, endEvent_goneOn.length_eq]
  split
  · rfl
  · exact congrArg Prod.fst (leaveAll_placeData (m := l))

/-- A lane's one window in ASSIGNING, with hold-for-car off, is tested for its pace (R57, R58, R106). -/
theorem holdTaken_singleton (h : (s.lane l).windows = [w]) (hw : w.state = .assigning) :
    ((holdTaken l false s).lane l).windows = [w.tested s l w.dir] := by
  have htested : ((leaveAll l (s.lane l).windows s).lane l).windows = [w.tested s l w.dir] := by
    rw [h]
    change ((leaveAssigning l w s).lane l).windows = _
    rw [leaveAssigning, if_pos hw, paceTest_windows, h]
    simp [mapWindow]
  have hgone := endEvent_goneOn (s := leaveAll l (s.lane l).windows s) (l := l) (m := l)
  rw [htested] at hgone
  refine hgone.singleton ?_
  unfold Window.tested
  split <;> simp [Window.opening]

/-- Settles O49: the settings and the status, a call timer by its window's call, and the two messages taken at a lane. -/
theorem dispatchEvents : Obligations.DispatchEvents := by
  intro p s
  refine ⟨fun d h t hasked => ⟨fun hnone => ?_, fun x hx => ⟨_, exec_setDispatch hasked, ?_⟩⟩, fun h => ?_, fun hrun =>
    ⟨fun g w hw => ⟨fun hearly => ?_, fun hdue => ⟨fun hposted => ?_, fun htaken => ?_⟩⟩, fun g hnone => ?_,
    fun g i before after hm hbefore => ⟨_, exec_dispatchIndication hrun hm hbefore, ?_, fun hnone => ?_,
      fun w hw hopen => ?_⟩,
    fun l on before after hm hbefore => ⟨_, exec_holdForCarReport hrun hm hbefore, ?_, ?_, holdTaken_length,
      fun w hoff hwindows hw => ?_⟩⟩⟩
  · rw [exec_setDispatch hasked]
    have hread : dispatchSettings (taken p s).dispatch d h t = none := hnone
    simp only [setDispatch, hread]
  · obtain ⟨hdispatch, hreply, hholds⟩ := setDispatch_done (p := p) (s := taken p s) hx
    obtain ⟨hqueue, hloss⟩ := dispatchSettings_keeps hx
    refine ⟨hdispatch, hqueue, hloss, fun ht => ?_, hreply, hholds⟩
    subst ht
    exact dispatchSettings_timeout hx
  · rw [exec_dispatchStatus h]
    cases p <;> rfl
  · rw [exec_callTimerExpiry hrun hw, if_neg (by simp [hearly])]
  · rw [exec_callTimerExpiry hrun hw, if_pos hdue, timeoutCall_posted (findWindow_tag hw) hposted]
    obtain ⟨v, hv, hcall, hdue'⟩ := callLapsed_find (c := .expired) (k := .expired) (dropCall_find.trans hw)
    refine ⟨_, v, rfl, hv, hcall, hdue', fun a f n => ?_, ?_⟩
    · change _ ∉ (callLapsed g w _ _ _).dispatch.queue
      rw [callLapsed_dispatch]
      exact dropCall_mem
    · change (callLapsed g w _ _ _).mail.indications ++ _ = _
      rw [callLapsed_indications, dropCall, setCalls_indications]
  · rw [exec_callTimerExpiry hrun hw, if_pos hdue, timeoutCall_taken (findWindow_tag hw) htaken]
    obtain ⟨v, hv, hcall, hdue'⟩ := callLapsed_find (c := .timedOut) (k := .timedOut) hw
    refine ⟨_, v, rfl, hv, hcall, hdue', callLapsed_dispatch, ?_⟩
    change (callLapsed g w _ _ _).mail.indications ++ _ = _
    rw [callLapsed_indications]
  · refine (running_of_not_resetHeld hrun _).trans ?_
    simp only [hnone]
  · rw [indicationTaken_mail]
    rfl
  · rw [exec_dispatchIndication hrun hm hbefore]
    exact congrArg _ (indicationTaken_discarded hnone)
  · rw [exec_dispatchIndication hrun hm hbefore]
    exact congrArg _ (indicationTaken_shown hw hopen)
  · exact holdTaken_keeps (b := .holds) (by simp) (by simp)
  · exact holdTaken_keeps (b := .dispatch) (by simp) (by simp)
  · subst hoff
    refine ⟨_, holdTaken_singleton hwindows hw, (Window.fields_of_fixed Window.tested_fixed).1, ?_⟩
    have hpace : paceHolds (s.onMail (fun m => { m with holds := before ++ after })) l w.dir = paceHolds s l w.dir := rfl
    rw [Window.tested, hpace]
    split <;> rfl

end Sys2Proof.Machine
end

section
/-!
PROOFS. The bank safety unit: its input, its requests, the lanes' reports to it, and the orders they take from it (R125 to
R137).
-/
namespace Sys2Proof.Machine

variable {s t u : State} {l m : Lane} {p : Port} {w : Window}

/-! ## The end of a restore, and what begins one -/

theorem testRestoreEnd_of_not (h : s.safety.egress ≠ .restoring ∨ s.safety.overtake = true) : testRestoreEnd s = s := by
  refine if_neg fun hends => ?_
  obtain ⟨hegress, -, hovertake, -⟩ := hends
  rcases h with h | h
  · exact h hegress
  · rw [hovertake] at h
    contradiction

theorem testRestoreEnd_mail : (testRestoreEnd s).mail = s.mail := by
  unfold testRestoreEnd
  split <;> rfl

/-- A lane in FREE is told to begin its restore (R131 to R133). -/
def tellStep (l : Lane) (s : State) : State :=
  if (s.lane l).state = .free then endEvent l (s.onLane l (fun u => { u with restoring := true })) else s

theorem tellRestore_eq {ls : List Lane} : tellRestore ls s = ls.foldl (fun t m => tellStep m t) s := by
  induction ls generalizing s with
  | nil => rfl
  | cons m r ih => exact ih

theorem tellStep_lane (h : m ≠ l) : (tellStep l s).lane m = s.lane m := by
  unfold tellStep
  split
  · exact (endEvent_keeps (b := .lane m) (by simp [h])).mpr (State.lane_onLane_ne _ _ h)
  · rfl

theorem tellRestore_restoring (h : (s.lane l).state = .free) : ((tellRestore Lane.all s).lane l).restoring = true := by
  obtain ⟨t, hbefore, hafter⟩ := foldl_visit (K := fun s t => t.lane l = s.lane l) (step := tellStep) (l := l) (s := s)
    (fun _ => rfl) (fun _ _ _ h k => k.trans h) fun m hm _ => tellStep_lane hm.symm
  obtain ⟨-, -, -, -, -, -, -, -, hrestoring, -⟩ := LaneUnit.fields_of_rest (endEvent_rest (l := l) (m := l)
    (s := t.onLane l (fun u => { u with restoring := true })))
  rw [tellRestore_eq, hafter, tellStep, if_pos (by rw [hbefore]; exact h), hrestoring, State.lane_onLane_self]

theorem testRestoreEnd_restoring (h : (s.lane l).state = .free) :
    ((testRestoreEnd (tellRestore Lane.all s)).lane l).restoring = true := by
  rw [testRestoreEnd_lane, tellRestore_restoring h]

theorem beginRestore_permitted (h : s.safety.needsRequest = false) : beginRestore s
    = testRestoreEnd (tellRestore Lane.all (safetyEvent .restoring [yes true]
        (onSafety (fun f => { f with egress := .restoring, restorePermitted := true }) s))) := by
  simp only [beginRestore, h, Bool.not_false, if_true]

theorem beginRestore_restoring (h : (s.lane l).state = .free) (hneeds : s.safety.needsRequest = false) :
    ((beginRestore s).lane l).restoring = true := by
  rw [beginRestore_permitted hneeds]
  exact testRestoreEnd_restoring h

/-! ## The input -/

theorem exec_egressReqChange {high : Bool} (h : s.resetHeld = false) : exec (.egressReqChange high) s
    = .next (compareInput { s with pins := { s.pins with egressReq := high } }) :=
  running_of_not_resetHeld (s := { s with pins := { s.pins with egressReq := high } }) h _

theorem exec_egressReqChange_held {high : Bool} (h : s.resetHeld = true) : exec (.egressReqChange high) s
    = .next { s with pins := { s.pins with egressReq := high } } := by
  change running { s with pins := { s.pins with egressReq := high } } _ = _
  rw [running]
  exact congrArg _ (if_pos h)

theorem exec_egressDebounceExpiry (h : s.resetHeld = false) : exec .egressDebounceExpiry s
    = .next (if s.due s.safety.debounceDue then
        (if s.pins.egressReq then egressCall else egressRelease)
          { s with safety := { s.safety with debounceDue := none, called := s.pins.egressReq } }
      else s) := by
  refine (running_of_not_resetHeld h _).trans (congrArg Host.Outcome.next ?_)
  cases hlevel : s.pins.egressReq <;> simp only [onSafety, hlevel] <;> rfl

theorem egressRelease_waits (h : s.safety.overtake = true) :
    egressRelease s = { s with safety := { s.safety with releaseWaiting := true } } := if_pos h

theorem egressRelease_begins (h : s.safety.overtake = false) (hegress : s.safety.egress = .egress) :
    egressRelease s = beginRestore s := by
  simp [egressRelease, h, hegress]

theorem egressRelease_ignored (h : s.safety.overtake = false) (hegress : s.safety.egress ≠ .egress) :
    egressRelease s = s := by
  simp [egressRelease, h, hegress]

/-- Settles O50: the comparison of the input, and the level taken by what it is. -/
theorem egressInput : Obligations.EgressInput := by
  intro s
  refine ⟨fun high h => exec_egressReqChange_held h, fun high h => exec_egressReqChange h, fun h hearly => ?_,
    fun h hdue => ?_⟩
  · rw [exec_egressDebounceExpiry h, if_neg (by simp [hearly])]
  · rw [exec_egressDebounceExpiry h, if_pos hdue]
    cases hlevel : s.pins.egressReq with
    | true => exact ⟨_, rfl, rfl, rfl, fun _ => ⟨rfl, rfl, rfl, rfl, rfl, rfl, rfl⟩, nofun⟩
    | false =>
      let t : State := { s with safety := { s.safety with debounceDue := none, called := false } }
      refine ⟨egressRelease t, rfl, ?_⟩
      cases hovertake : s.safety.overtake with
      | true =>
        rw [egressRelease_waits (s := t) hovertake]
        exact ⟨rfl, rfl, nofun, fun _ => ⟨fun _ => ⟨rfl, rfl⟩, nofun, nofun⟩⟩
      | false =>
        by_cases hegress : s.safety.egress = .egress
        · obtain ⟨k, hk⟩ := beginRestore_safety t
          rw [egressRelease_begins (s := t) hovertake hegress, hk]
          exact ⟨rfl, rfl, nofun, fun _ => ⟨nofun, fun _ hnot => absurd hegress hnot, fun _ _ => ⟨rfl, rfl, fun l hfree
            hneeds => beginRestore_restoring (s := t) hfree hneeds⟩⟩⟩
        · rw [egressRelease_ignored (s := t) hovertake hegress]
          exact ⟨rfl, rfl, nofun, fun _ => ⟨nofun, fun _ _ => rfl, fun _ h => absurd h hegress⟩⟩

/-! ## Orders the lanes take -/

theorem overtaken_iff {st : LaneState} : st.overtaken = true ↔ st = .ready ∨ st = .serving ∨ st = .alarm := by
  cases st <;> simp [LaneState.overtaken]

theorem overtaken_eq_false_iff {st : LaneState} :
    st.overtaken = false ↔ st ≠ .ready ∧ st ≠ .serving ∧ st ≠ .alarm := by
  cases st <;> simp [LaneState.overtaken]

/-- An overtake order taken at a lane, reported and ended (R128). -/
def orderTaken (l : Lane) (s : State) : State := endEvent l (report l .orderTaken (overtakeLane l s))

theorem exec_overtakeOrder (hrun : s.resetHeld = false) (h : l ∈ s.mail.overtakes) : exec (.overtakeOrder l) s
    = .next (orderTaken l (s.onMail (fun m => { m with overtakes := m.overtakes.erase l }))) := by
  refine (running_of_not_resetHeld hrun _).trans ?_
  rw [if_pos h]
  rfl

theorem overtakeLane_overtaken (h : (s.lane l).state.overtaken = true) :
    overtakeLane l s = askBoth l .free (changeState l .free (endAll l .overtaken s)) := if_pos h

theorem overtakeLane_state_of_not (h : (s.lane l).state.overtaken = false) :
    ((overtakeLane l s).lane l).state = (s.lane l).state := by
  unfold overtakeLane
  rw [if_neg (by simp [h])]
  split
  · rw [State.lane_onLane_self]
  · rfl

theorem orderTaken_free (h : (s.lane l).state.overtaken = true) : ((orderTaken l s).lane l).state = .free
    ∧ ∀ w ∈ (s.lane l).windows, w.state ≠ .closing →
      .posting ⟨w.tag, w.cred, w.dir, .overtaken⟩ ∈ (orderTaken l s).arbiter.first := by
  rw [orderTaken, endEvent_state, endEvent_arbiter, report_lane, overtakeLane_overtaken h]
  refine ⟨askBoth_state.trans changeState_state, fun w hw hopen => ?_⟩
  change _ ∈ (changeState l .free (endAll l .overtaken s)).arbiter.first
  rw [changeState_arbiter]
  exact endWhere_posting hw rfl hopen

theorem exec_lockdownOrder (hrun : s.resetHeld = false) (h : l ∈ s.mail.lockdowns) : exec (.lockdownOrder l) s
    = .next (endEvent l (endWhere l (fun w => w.dir == .entry && w.state.beforeTransit) .withdrawn
        (s.onMail (fun m => { m with lockdowns := m.lockdowns.erase l })))) := by
  refine (running_of_not_resetHeld hrun _).trans ?_
  rw [if_pos h]

/-! ## Lane reports -/

/-- A lane's report taken by the bank safety unit (R125, R129, R134). -/
def reportTaken (l : Lane) (r : LaneReport) (s : State) : State :=
  if r.leavesFree then testRestoreEnd (testEgress (sendAgain l r s)) else testEgress (sendAgain l r s)

theorem exec_laneStateReport {r : LaneReport} {before after : List (Lane × LaneReport)} (hrun : s.resetHeld = false)
    (hm : s.mail.reports = before ++ (l, r) :: after) (hbefore : ∀ y ∈ before, y.1 ≠ l) : exec (.laneStateReport l) s
      = .next (reportTaken l r (s.onMail (fun m => { m with reports := before ++ after }))) := by
  refine (running_of_not_resetHeld hrun _).trans ?_
  rw [hm, takeFirst_split (p := fun y : Lane × LaneReport => y.1 == l) (beq_self_eq_true l) fun y hy =>
    beq_eq_false_iff_ne.mpr (hbefore y hy)]
  rfl

theorem sendAgain_of_not {r : LaneReport}
    (h : s.safety.overtake = false ∨ ∀ former new, r = .changed former new → new.overtaken = false) :
    sendAgain l r s = s := by
  unfold sendAgain
  split
  · rename_i former new
    refine if_neg ?_
    rcases h with h | h
    · simp [h]
    · simp [h former new rfl]
  · rfl

theorem sendAgain_safety {r : LaneReport} : (sendAgain l r s).safety = s.safety :=
  (sendAgain_keeps (b := .safety) (by simp)).mpr rfl

theorem sendAgain_reports {r : LaneReport} : (sendAgain l r s).mail.reports = s.mail.reports :=
  (sendAgain_keeps (b := .reports) (by simp)).mpr rfl

theorem sendAgain_overtakes {r : LaneReport} (h : s.mail.overtakes ≠ []) : (sendAgain l r s).mail.overtakes ≠ [] := by
  unfold sendAgain
  split
  · split
    · exact List.append_ne_nil_of_left_ne_nil h _
    · exact h
  · exact h

theorem testEgress_of_not (h : egressReached s = false) : testEgress s = s := by simp [testEgress, h]

theorem testEgress_reached (h : egressReached s = true) (hwaiting : s.safety.releaseWaiting = false) :
    testEgress s = becomeEgress s := by
  rw [testEgress, if_pos h, takeWaitingRelease_of_none (by rw [becomeEgress_safety]; exact hwaiting)]

theorem reportTaken_egress {r : LaneReport} (hreport : ∀ former new, r = .changed former new → new.overtaken = false)
    (h : egressReached s = true) (hwaiting : s.safety.releaseWaiting = false) :
    reportTaken l r s = becomeEgress s := by
  rw [reportTaken, sendAgain_of_not (.inr hreport), testEgress_reached h hwaiting,
    testRestoreEnd_of_not (.inl (by rw [becomeEgress_safety]; simp)), ite_self]

theorem reportTaken_safety {r : LaneReport} (hovertake : s.safety.overtake = true)
    (h : egressReached (sendAgain l r s) = false) : (reportTaken l r s).safety = s.safety := by
  rw [reportTaken, testEgress_of_not h, testRestoreEnd_of_not (.inr (by rw [sendAgain_safety]; exact hovertake)), ite_self,
    sendAgain_safety]

theorem reportTaken_idle {r : LaneReport} (hovertake : s.safety.overtake = false) (h : r.leavesFree = false) :
    reportTaken l r s = s := by
  rw [reportTaken, h, sendAgain_of_not (.inl hovertake), testEgress_of_not (by simp [egressReached, hovertake])]
  rfl

theorem leavesFree_eq_false {r : LaneReport} (h : ∀ former new, r = .changed former new → former ≠ .free) :
    r.leavesFree = false := by
  cases r with
  | changed former new => simpa [LaneReport.leavesFree] using h former new rfl
  | orderTaken => rfl
  | listEmpty => rfl

theorem reportTaken_reports {r : LaneReport} : (reportTaken l r s).mail.reports = s.mail.reports := by
  have htested : (testEgress (sendAgain l r s)).mail.reports = s.mail.reports :=
    ((testEgress_keeps (b := .reports) (by simp)).mpr rfl).trans sendAgain_reports
  unfold reportTaken
  split
  · rw [testRestoreEnd_mail, htested]
  · exact htested

/-! ## The end of the amnesty -/

/-- An amnesty done, taken by the bank safety unit (R134). -/
def amnestyTaken (s : State) : State :=
  if s.safety.overtake = false ∧ s.safety.egress = .restoring ∧ s.safety.claimStands = true then
    safetyEvent .restored [] (onSafety (fun f => { f with egress := .normal, claimStands := false }) s)
  else testRestoreEnd s

theorem exec_amnestyDone (hrun : s.resetHeld = false) (h : s.mail.amnestyDone ≠ 0) : exec .amnestyDone s
    = .next (amnestyTaken (s.onMail (fun m => { m with amnestyDone := m.amnestyDone - 1 }))) := by
  refine (running_of_not_resetHeld hrun _).trans ?_
  rw [if_neg h]
  rfl

theorem amnestyTaken_done : (amnestyTaken s).mail.amnestyDone = s.mail.amnestyDone := by
  unfold amnestyTaken
  split
  · rfl
  · rw [testRestoreEnd_mail]

theorem exec_freeRestoreClearExpiry (hrun : s.resetHeld = false) : exec (.freeRestoreClearExpiry l) s
    = .next (if (s.lane l).state = .free ∧ s.due (s.lane l).clearDue = true then endEvent l (backToReady l s) else s) :=
  running_of_not_resetHeld hrun _

theorem orderTaken_overtakes : (orderTaken l s).mail.overtakes = s.mail.overtakes := by
  rw [orderTaken, endEvent_mail]
  exact (overtakeLane_keeps (b := .overtakes) (by simp)).mpr rfl

theorem endWhere_lockdowns {f : Window → Bool} {o : WinOutcome} :
    (endWhere l f o s).mail.lockdowns = s.mail.lockdowns := (endWhere_keeps (b := .lockdowns) (by simp)).mpr rfl

/-- Settles O51: each order by the lane's state, each report by the conditions of R129, and the two ends of a restore. -/
theorem safetyEvents : Obligations.SafetyEvents := by
  intro s hrun
  refine ⟨fun l h => ?_, fun l h => ⟨_, exec_overtakeOrder hrun h, orderTaken_overtakes, fun hovertaken => ?_,
    fun hr hs ha => ?_⟩, fun l h => ?_, fun l h => ⟨_, exec_lockdownOrder hrun h, ?_, fun w hw hd hbefore => ?_⟩,
    fun l r before after hm hbefore => ⟨_, exec_laneStateReport hrun hm hbefore, reportTaken_reports,
      fun hovertake hwaiting horders hlanes hreport hbears => ?_, fun hovertake hmore => ?_, fun hovertake hfree => ?_⟩,
    fun h => ?_, fun h => ⟨_, exec_amnestyDone hrun (by omega), amnestyTaken_done, fun hovertake hegress hclaim => ?_,
      fun hovertake => ?_⟩, fun l h => ?_, fun l hfree hdue => ⟨_, exec_freeRestoreClearExpiry hrun, ?_⟩⟩
  · refine (running_of_not_resetHeld hrun _).trans ?_
    rw [if_neg h]
  · exact orderTaken_free (s := s.onMail (fun m => { m with overtakes := m.overtakes.erase l })) (overtaken_iff.mpr hovertaken)
  · rw [orderTaken, endEvent_state, report_lane]
    exact overtakeLane_state_of_not (s := s.onMail (fun m => { m with overtakes := m.overtakes.erase l }))
      (overtaken_eq_false_iff.mpr ⟨hr, hs, ha⟩)
  · refine (running_of_not_resetHeld hrun _).trans ?_
    rw [if_neg h]
  · rw [endEvent_mail, endWhere_lockdowns]
    rfl
  · rw [endEvent_arbiter, ← hd]
    exact endWhere_posting (s := s.onMail (fun m => { m with lockdowns := m.lockdowns.erase l })) hw (by simp [hd, hbefore])
      (WinState.ne_closing_of_beforeTransit hbefore)
  · have hreached : egressReached (s.onMail (fun m => { m with reports := before ++ after })) = true := by
      simp only [egressReached, Bool.and_eq_true, List.all_eq_true, Bool.not_eq_true', List.isEmpty_iff]
      exact ⟨⟨⟨hovertake, horders⟩, hbears⟩, fun m _ => ⟨overtaken_eq_false_iff.mpr (hlanes m).2, (hlanes m).1⟩⟩
    rw [reportTaken_egress (fun former new h => overtaken_eq_false_iff.mpr (hreport former new h)) hreached hwaiting,
      becomeEgress_safety]
    exact ⟨rfl, rfl, becomeEgress_clears, becomeEgress_uncertain⟩
  · have hnot : egressReached (sendAgain l r (s.onMail (fun m => { m with reports := before ++ after }))) = false := by
      rcases hmore with horders | ⟨y, hy, hbears⟩
      · have hkept := sendAgain_overtakes (l := l) (r := r) (s := s.onMail (fun m => { m with reports := before ++ after }))
          horders
        simp [egressReached, hkept]
      · have hsome : (before ++ after).all (fun x => !x.2.bears) = false :=
          List.all_eq_false.mpr ⟨y, hy, by simp [hbears]⟩
        rw [egressReached, sendAgain_reports]
        change (_ && (before ++ after).all (fun x => !x.2.bears) && _) = false
        rw [hsome, Bool.and_false, Bool.false_and]
    rw [reportTaken_safety (s := s.onMail (fun m => { m with reports := before ++ after })) hovertake hnot]
    exact ⟨rfl, hovertake⟩
  · exact reportTaken_idle (s := s.onMail (fun m => { m with reports := before ++ after })) hovertake
      (leavesFree_eq_false hfree)
  · refine (running_of_not_resetHeld hrun _).trans ?_
    rw [if_pos h]
  · rw [amnestyTaken, if_pos ⟨hovertake, hegress, hclaim⟩]
    exact ⟨rfl, rfl⟩
  · rw [amnestyTaken, if_neg (by simp [hovertake]), testRestoreEnd_of_not
      (s := s.onMail (fun m => { m with amnestyDone := m.amnestyDone - 1 })) (.inr hovertake)]
    rfl
  · rw [exec_freeRestoreClearExpiry hrun, if_neg (by rcases h with h | h <;> simp [h])]
  · rw [if_pos ⟨hfree, hdue⟩, endEvent_state, backToReady_state]

/-! ## Requests -/

theorem exec_restore (h : Asked p .restore s) : exec (.restore p) s = .next (restore p (taken p s)) := by
  refine (running_of_not_resetHeld h.1 _).trans ?_
  simp only [h.2]
  rfl

theorem restore_permitted (hegress : s.safety.egress = .restoring) (hovertake : s.safety.overtake = false)
    (hpermitted : s.safety.restorePermitted = false) : restore p s = testRestoreEnd (tellRestore Lane.all (answer p .ok [1]
      (onSafety (fun f => { f with restorePermitted := true }) s))) := if_pos ⟨hegress, hovertake, hpermitted⟩

theorem restore_refused (h : s.safety.egress ≠ .restoring ∨ s.safety.overtake = true ∨ s.safety.restorePermitted = true) :
    restore p s = answer p .ok [0, BitVec.ofNat 8 s.safety.egress.num] s := by
  refine if_neg fun hpermits => ?_
  obtain ⟨hegress, hovertake, hpermitted⟩ := hpermits
  rcases h with h | h | h
  · exact h hegress
  · rw [hovertake] at h
    contradiction
  · rw [hpermitted] at h
    contradiction

theorem exec_setEgress {v : Byte} (h : Asked p (.setEgress v) s) : exec (.setEgress p) s = .next (match yesNo v with
    | some b => answer p .ok [] { taken p s with safety := { s.safety with needsRequest := b } }
    | none => answer p .badField [] (taken p s)) := by
  refine (running_of_not_resetHeld h.1 _).trans ?_
  simp only [h.2]
  rfl

theorem exec_lockdown {v : Byte} (h : Asked p (.lockdown v) s) :
    exec (.lockdown p) s = .next (lockdown p v (taken p s)) := by
  refine (running_of_not_resetHeld h.1 _).trans ?_
  simp only [h.2]
  rfl

theorem exec_safetyStatus (h : Asked p .safetyStatus s) :
    exec (.safetyStatus p) s = .next (answer p .ok (safetyBody s) (taken p s)) := by
  refine (running_of_not_resetHeld h.1 _).trans ?_
  simp only [h.2]
  rfl

theorem yesNo_large {v : Byte} (h : 1 < v.toNat) : yesNo v = none := by
  have hone : v ≠ 1 := by rintro rfl; exact absurd h (by decide)
  have hzero : v ≠ 0 := by rintro rfl; exact absurd h (by decide)
  rw [yesNo, if_neg hone, if_neg hzero]

theorem lockdown_unread {v : Byte} (h : yesNo v = none) : lockdown p v s = answer p .badField [] s := by
  simp only [lockdown, h]

theorem lockdown_same {v : Byte} {b : Bool} (h : yesNo v = some b) (hb : s.safety.lockdown = b) :
    lockdown p v s = answer p .ok [] s := by
  simp only [lockdown, h, hb, if_true]

theorem lockdown_changed {v : Byte} {b : Bool} (h : yesNo v = some b) (hb : s.safety.lockdown ≠ b) :
    lockdown p v s = answer p .ok [] (setLockdown b s) := by
  simp only [lockdown, h, hb, if_false]

/-- Settles O52: the requests by their values and the unit's state. -/
theorem safetyRequests : Obligations.SafetyRequests := by
  intro p s
  refine ⟨fun h => ⟨fun hegress hovertake hpermitted => ⟨_, exec_restore h, ?_⟩, fun hnot => ?_⟩, fun v h => ⟨fun hv => ?_,
    fun hv => ?_, fun hlarge => ?_⟩, fun v h => ⟨fun hlarge => ?_, fun hsame => ?_, fun hv hoff => ⟨_, exec_lockdown h, ?_⟩,
    fun hv hon => ⟨_, exec_lockdown h, ?_⟩⟩, fun h => exec_safetyStatus h⟩
  · rw [restore_permitted (s := taken p s) hegress hovertake hpermitted]
    refine ⟨?_, ?_, fun l hfree => testRestoreEnd_restoring hfree⟩
    · obtain ⟨k, hk⟩ := testRestoreEnd_safety (tellRestore Lane.all (answer p .ok [1]
        (onSafety (fun f => { f with restorePermitted := true }) (taken p s))))
      rw [hk, (tellRestore_keeps (b := .safety) (by simp)).mpr (Block.same_refl _ _)]
      rfl
    · rw [testRestoreEnd_mail, (tellRestore_keeps (b := .replies p) (by simp)).mpr (Block.same_refl _ _)]
      exact answer_reply
  · rw [exec_restore h, restore_refused (s := taken p s) hnot]
    rfl
  · subst hv
    rw [exec_setEgress h]
    rfl
  · subst hv
    rw [exec_setEgress h]
    rfl
  · rw [exec_setEgress h, yesNo_large hlarge]
  · rw [exec_lockdown h, lockdown_unread (yesNo_large hlarge)]
  · rw [exec_lockdown h]
    rcases hsame with ⟨rfl, hon⟩ | ⟨rfl, hoff⟩
    · rw [lockdown_same (s := taken p s) (b := true) rfl hon]
    · rw [lockdown_same (s := taken p s) (b := false) rfl hoff]
  · subst hv
    have hoff' : (taken p s).safety.lockdown ≠ true := by
      change s.safety.lockdown ≠ true
      simp [hoff]
    rw [lockdown_changed (s := taken p s) (b := true) rfl hoff']
    exact ⟨rfl, rfl, rfl, answer_reply, rfl⟩
  · subst hv
    have hon' : (taken p s).safety.lockdown ≠ false := by
      change s.safety.lockdown ≠ false
      simp [hon]
    rw [lockdown_changed (s := taken p s) (b := false) rfl hon']
    exact ⟨rfl, rfl, rfl, answer_reply, rfl⟩

end Sys2Proof.Machine
end

section
/-!
PROOFS. Alarms (R68), the sense events (R60 to R64, R67, R158), and the lane's timers (R58, R65 to R67, R69, R73).
-/
namespace Sys2Proof.Machine

variable {s t u : State} {l m : Lane} {w : Window} {r : AlarmReason} {d : Direction} {o : WinOutcome}
  {before after : List (Lane × SenseItem)}

/-! ## Alarms -/

theorem stamp_of_clock (h : t.clock = s.clock) : t.stamp = s.stamp := by rw [State.stamp, State.stamp, h]

theorem raiseAlarm_raised : AlarmRaised l r s (raiseAlarm l r s) := by
  have hclock : (changeState l .alarm (endWhere l (fun w => w.state.beforeTransit) .withdrawn s)).clock = s.clock :=
    (changeState_keeps (b := .clock) (by simp)).mpr ((endWhere_keeps (b := .clock) (by simp)).mpr rfl)
  have hcore : ((changeState l .alarm (endWhere l (fun w => w.state.beforeTransit) .withdrawn s)).lane l).core
      = (s.lane l).core := by rw [changeState_core, endWhere_core]
  obtain ⟨-, -, -, hcounters, -⟩ := LaneUnit.fields_of_core hcore
  unfold raiseAlarm
  dsimp only
  obtain ⟨hstate, -, -, -, -, -, -, -, -, hcounters', -, -, -, hreason⟩ := LaneUnit.fields_of_rest
    (askBoth_rest (l := l) (m := l) (i := .stop)
      (s := (changeState l .alarm (endWhere l (fun w => w.state.beforeTransit) .withdrawn s)).onLane l (fun u =>
        { u with counters := u.counters.alarm r, acknowledged := false, clearDue := none, alarmReason := some r })))
  rw [State.lane_onLane_self] at hstate hcounters' hreason
  refine ⟨hstate.trans changeState_state, hreason, hcounters'.trans (congrArg (Counters.alarm · r) hcounters),
    fun w hw hbefore => ?_, ?_⟩
  · change _ ∈ (changeState l .alarm (endWhere l (fun w => w.state.beforeTransit) .withdrawn s)).arbiter.first
    rw [changeState_arbiter]
    exact endWhere_posting hw hbefore (WinState.ne_closing_of_beforeTransit hbefore)
  · rw [← stamp_of_clock hclock]
    exact List.mem_append_right _ (List.mem_singleton_self _)

theorem AlarmRaised.endEvent (h : AlarmRaised l r s u) : AlarmRaised l r s (endEvent m u) := by
  obtain ⟨hstate, hreason, hcounters, hpostings, hrecord⟩ := h
  obtain ⟨hstate', -, -, -, -, -, -, -, -, hcounters', -, -, -, hreason'⟩ :=
    LaneUnit.fields_of_rest (endEvent_rest (l := m) (m := l) (s := u))
  refine ⟨hstate'.trans hstate, hreason'.trans hreason, hcounters'.trans hcounters, fun w hw hbefore => ?_, ?_⟩
  · rw [endEvent_arbiter]
    exact hpostings w hw hbefore
  · rw [endEvent_mail]
    exact hrecord

/-- An alarm raised in a state with the same windows, counters and clock. -/
theorem AlarmRaised.of_before (h : AlarmRaised l r t u) (hwindows : (t.lane l).windows = (s.lane l).windows)
    (hcounters : (t.lane l).counters = (s.lane l).counters) (hclock : t.clock = s.clock) : AlarmRaised l r s u := by
  rwa [AlarmRaised, ← hwindows, ← hcounters, ← stamp_of_clock hclock]

theorem raiseAlarm_sense : (raiseAlarm l r s).mail.sense = s.mail.sense := (raiseAlarm_keeps (b := .sense) (by simp)).mpr rfl

theorem raiseAlarm_firstKept (l : Lane) (r : AlarmReason) (s : State) : FirstKept s (raiseAlarm l r s) :=
  (endWhere_firstKept l (fun w => w.state.beforeTransit) .withdrawn s).trans (.of_same (by simp [raiseAlarm]))

/-! ## Windows by their tags -/

/-- The window changed so stands in the lane's list, and so does every change of its tag, none of them in QUEUED. -/
theorem endEvent_mapped {f : Window → Window} (hw : w ∈ (s.lane l).windows) (hf : ∀ x, (f x).tag = x.tag)
    (hqueued : ∀ x, (f x).state ≠ .queued) (hu : (u.lane l).windows = mapWindow w.tag f (s.lane l).windows) :
    f w ∈ ((endEvent l u).lane l).windows := by
  refine endEvent_goneOn.mem ?_ fun x hx htag => ?_
  · rw [hu, mapWindow]
    exact List.mem_map.mpr ⟨w, hw, by simp⟩
  · rw [hu, mapWindow] at hx
    obtain ⟨y, -, rfl⟩ := List.mem_map.mp hx
    by_cases hy : y.tag = w.tag
    · simp [hy, hqueued]
    · simp [hy, hf] at htag

theorem endWindow_closedAt (hw : w ∈ (s.lane l).windows) (hopen : w.state ≠ .closing) :
    ClosedAt l o w (endWindow l w o s) := by
  rw [ClosedAt, endWindow_windows hopen]
  refine ⟨List.mem_map.mpr ⟨w, hw, by simp⟩, fun x hx htag => ?_⟩
  obtain ⟨y, -, rfl⟩ := List.mem_map.mp hx
  by_cases hy : y.tag = w.tag
  · simp [hy, Window.ended]
  · simp [hy] at htag

theorem endWindow_first (hopen : w.state ≠ .closing) :
    (endWindow l w o s).arbiter.first = s.arbiter.first ++ [.posting ⟨w.tag, w.cred, w.dir, o⟩] := by
  rw [endWindow_arbiter hopen]
  rfl

theorem endWindow_sense : (endWindow l w o s).mail.sense = s.mail.sense := (endWindow_keeps (b := .sense) (by simp)).mpr rfl

theorem isIn_iff {st : WinState} : Window.isIn d st w = true ↔ w.dir = d ∧ w.state = st := by simp [Window.isIn]

/-- No window of the direction is in the state. -/
theorem find_isIn_none {st : WinState} {ws : List Window} (h : ∀ w ∈ ws, w.dir = d → w.state ≠ st) :
    ws.find? (Window.isIn d st) = none :=
  List.find?_eq_none.mpr fun w hw hin => h w hw (isIn_iff.mp hin).1 (isIn_iff.mp hin).2

/-! ## A sense item taken -/

/-- The state in which a taken sense item is acted on. -/
def senseLeft (items : List (Lane × SenseItem)) (s : State) : State := s.onMail (fun m => { m with sense := items })

theorem senseStep_taken {α : Type} {x : SenseItem} {read : SenseItem → Option α} {f : α → State → State} {a : α}
    (h : SenseWaits l x before after s) (haddressed : (s.lane l).state.unaddressed = false) (hread : read x = some a) :
    running s (senseStep l read f s) = .next (endEvent l (f a (senseLeft (before ++ after) s))) := by
  obtain ⟨hrun, hsense, hbefore⟩ := h
  refine (running_of_not_resetHeld hrun _).trans ?_
  have htaken : takeFirst (fun y : Lane × SenseItem => y.1 == l) s.mail.sense = some ((l, x), before ++ after) := by
    rw [hsense]
    exact takeFirst_split (beq_self_eq_true l) fun y hy => beq_eq_false_iff_ne.mpr (hbefore y hy)
  have haddressed' : ((s.onMail (fun m => { m with sense := before ++ after })).lane l).state.unaddressed = false :=
    haddressed
  simp only [senseStep, htaken, hread, haddressed']
  rfl

theorem attributes_iff {st : LaneState} : st.attributes = true ↔ st = .ready ∨ st = .serving ∨ st = .alarm := by
  cases st <;> simp [LaneState.attributes]

theorem Attributed.addressed (h : Attributed l s) : (s.lane l).state.unaddressed = false := by
  rcases h with h | h | h <;> rw [h] <;> rfl

theorem attributed_of {f : State → State} (h : Attributed l s) : attributed l f s = f s :=
  if_pos (attributes_iff.mpr h)

theorem attributed_of_not {f : State → State} (h : ¬Attributed l s) : attributed l f s = s :=
  if_neg fun hattributes => h (attributes_iff.mp hattributes)

section Taken

variable (haddressed : (s.lane l).state.unaddressed = false)
include haddressed

theorem exec_crossIn {side : SenseSide} (h : SenseWaits l (.event (.crossIn side)) before after s) : exec (.crossIn l) s
    = .next (endEvent l (attributed l (crossIn l side.inward) (senseLeft (before ++ after) s))) :=
  senseStep_taken h haddressed rfl

theorem exec_crossLeaf (h : SenseWaits l (.event (.crossLeaf d)) before after s) : exec (.crossLeaf l) s
    = .next (endEvent l (attributed l (crossLeaf l d) (senseLeft (before ++ after) s))) :=
  senseStep_taken h haddressed rfl

theorem exec_crossOut {side : SenseSide} (h : SenseWaits l (.event (.crossOut side)) before after s) : exec (.crossOut l) s
    = .next (endEvent l (attributed l (crossOut l side) (senseLeft (before ++ after) s))) :=
  senseStep_taken h haddressed rfl

theorem exec_retreat {side : SenseSide} (h : SenseWaits l (.event (.retreat side)) before after s) : exec (.retreat l) s
    = .next (endEvent l (attributed l (retreat l side.inward) (senseLeft (before ++ after) s))) :=
  senseStep_taken h haddressed rfl

theorem exec_pair {side : SenseSide} (h : SenseWaits l (.event (.pair side)) before after s) : exec (.pair l) s
    = .next (endEvent l (attributed l (pairSeen l side.inward) (senseLeft (before ++ after) s))) :=
  senseStep_taken h haddressed rfl

theorem exec_obstructOn (h : SenseWaits l (.event .obstructOn) before after s) : exec (.obstructOn l) s
    = .next (endEvent l (obstructOn l (senseLeft (before ++ after) s))) := senseStep_taken h haddressed rfl

theorem exec_obstructOff (h : SenseWaits l (.event .obstructOff) before after s) : exec (.obstructOff l) s
    = .next (endEvent l ((senseLeft (before ++ after) s).onLane l
        (fun u => { u with obstruction := false, obstructDue := none }))) := senseStep_taken h haddressed rfl

theorem exec_senseStateUpdate {pos : LeafPosition} {z : Zones} (h : SenseWaits l (.update pos z) before after s) :
    exec (.senseStateUpdate l) s = .next (endEvent l ((senseLeft (before ++ after) s).onLane l
      (fun u => { u with leafPos := pos, zones := z }))) := by
  change execSenseStateUpdate l s = _
  rw [execSenseStateUpdate]
  exact senseStep_taken (a := (pos, z)) h haddressed rfl

end Taken

/-! ## What a crossing makes of the lane -/

/-- A crossing into an OPEN window's direction (R61). -/
def Window.crossed (due : Nat) (w : Window) : Window := { w with state := .transit, openDue := none, transitDue := some due }

theorem crossIn_opened (h : (s.lane l).windows.find? (Window.isIn d .opened) = some w) : crossIn l d s
    = onWindow l w.tag (Window.crossed (s.time + (s.lane l).settings.transitLimit * 1000)) s := by
  simp only [crossIn, h]
  rfl

theorem crossIn_alarm (h : ∀ w ∈ (s.lane l).windows, w.dir = d → w.state ≠ .opened) : crossIn l d s
    = raiseAlarm l (if (s.lane l).windows.any (Window.isIn d .transit) then .tailgate else .intrusion) s := by
  simp only [crossIn, find_isIn_none h]

theorem crossIn_sense : (crossIn l d s).mail.sense = s.mail.sense := by
  unfold crossIn
  dsimp only
  split
  · rfl
  · exact raiseAlarm_sense

theorem crossOut_passed {side : SenseSide} (h : (s.lane l).windows.find? (Window.isIn side.outward .transit) = some w) :
    crossOut l side s = endWindow l w .passed s := by
  simp only [crossOut, h]

theorem crossOut_unmatched {side : SenseSide}
    (h : ∀ w ∈ (s.lane l).windows, w.dir = side.outward → w.state ≠ .transit) :
    crossOut l side s = laneRecord l .unmatchedExit (.items {} (b1 side.num)) s := by
  simp only [crossOut, find_isIn_none h]

theorem crossOut_sense {side : SenseSide} : (crossOut l side s).mail.sense = s.mail.sense := by
  unfold crossOut
  split
  · exact endWindow_sense
  · rfl

theorem crossLeaf_sense : (crossLeaf l d s).mail.sense = s.mail.sense := by
  unfold crossLeaf
  split <;> rfl

theorem retreat_found (h : (s.lane l).windows.reverse.find? (Window.isIn d .transit) = some w) : retreat l d s
    = if w.retreats ≠ 0 then endWindow l w .unused s
      else if (s.lane l).state = .alarm then endWindow l w .withdrawn s
      else openWindow l w (onWindow l w.tag (fun x => { x with retreats := 1, pastLeaf := false }) s) := by
  simp only [retreat, h]

theorem retreat_unmatched (h : ∀ w ∈ (s.lane l).windows, w.dir = d → w.state ≠ .transit) :
    retreat l d s = laneRecord l .unmatchedRetreat .none s := by
  have hnone : (s.lane l).windows.reverse.find? (Window.isIn d .transit) = none :=
    find_isIn_none fun w hw => h w (List.mem_reverse.mp hw)
  simp only [retreat, hnone]

theorem openWindow_mail : (openWindow l w s).mail = s.mail := rfl

theorem openWindow_arbiter : (openWindow l w s).arbiter = s.arbiter := rfl

theorem retreat_sense : (retreat l d s).mail.sense = s.mail.sense := by
  unfold retreat
  split
  · repeat' split
    · exact endWindow_sense
    · exact endWindow_sense
    · rfl
  · rfl

/-- A window that its first retreat opens once more (R64). -/
def Window.reopened (due : Nat) (w : Window) : Window :=
  { w with retreats := 1, pastLeaf := false, state := .opened, openDue := some due, transitDue := none }

theorem retreat_reopens :
    ((openWindow l w (onWindow l w.tag (fun x => { x with retreats := 1, pastLeaf := false }) s)).lane l).windows
      = mapWindow w.tag (Window.reopened (s.time + (s.lane l).settings.openTime * 1000)) (s.lane l).windows := by
  rw [openWindow_windows, onWindow_windows, mapWindow, mapWindow, List.map_map]
  have hsettings : ((onWindow l w.tag (fun x => { x with retreats := 1, pastLeaf := false }) s).lane l).settings
      = (s.lane l).settings := (LaneUnit.fields_of_rest onWindow_rest).2.1
  rw [hsettings]
  refine List.map_congr_left fun x _ => ?_
  cases hx : x.tag == w.tag with
  | true =>
    simp only [Function.comp_apply, hx, if_true]
    rfl
  | false => simp [beq_eq_false_iff_ne.mp hx]

theorem pairSeen_few (h : ((s.lane l).windows.filter (fun w => Window.isIn d .opened w || Window.isIn d .transit w)).length
    < 2) : pairSeen l d s = raiseAlarm l .tailgate s := if_neg (by omega)

theorem pairSeen_two (h : 2 ≤ ((s.lane l).windows.filter
    (fun w => Window.isIn d .opened w || Window.isIn d .transit w)).length) : pairSeen l d s = s := if_pos h

theorem pairSeen_sense : (pairSeen l d s).mail.sense = s.mail.sense := by
  unfold pairSeen
  split
  · rfl
  · exact raiseAlarm_sense

/-- A window that the find of a list gives is in the list, with what was asked of it. -/
theorem found_isIn {st : WinState} {ws : List Window} (h : ws.find? (Window.isIn d st) = some w) :
    w ∈ ws ∧ w.dir = d ∧ w.state = st :=
  ⟨List.mem_of_find?_eq_some h, isIn_iff.mp (List.find?_some h)⟩

/-- Settles O57: each event by the window that it concerns, then the end of the lane's event. -/
theorem crossingsAttributed : Obligations.CrossingsAttributed := by
  intro l s before after hat
  have haddressed := hat.addressed
  let t := senseLeft (before ++ after) s
  have hat' : Attributed l t := hat
  refine ⟨fun side h => ⟨_, exec_crossIn haddressed h, ?_⟩, fun d h => ⟨_, exec_crossLeaf haddressed h, ?_⟩,
    fun side h => ⟨_, exec_crossOut haddressed h, ?_⟩, fun side h => ⟨_, exec_retreat haddressed h, ?_⟩,
    fun side h => ⟨_, exec_pair haddressed h, ?_⟩⟩
  all_goals rw [attributed_of hat']
  · refine ⟨(congrArg Mail.sense endEvent_mail).trans crossIn_sense, fun w hw => ?_, fun hnone => ?_⟩
    · obtain ⟨hmem, -, -⟩ := found_isIn hw
      rw [crossIn_opened (s := t) hw]
      exact ⟨_, endEvent_mapped (s := t) (f := Window.crossed _) hmem (fun _ => rfl) (fun _ => by simp [Window.crossed])
        onWindow_windows, rfl, rfl, rfl, rfl, rfl⟩
    · rw [crossIn_alarm (s := t) hnone]
      exact (raiseAlarm_raised.endEvent (m := l)).of_before (t := t) rfl rfl rfl
  · refine ⟨(congrArg Mail.sense endEvent_mail).trans crossLeaf_sense, fun w hw => ?_⟩
    have hleaf : crossLeaf l d t = onWindow l w.tag (fun x => { x with pastLeaf := true }) t := by
      have hw' : (t.lane l).windows.find? (fun w => Window.isIn d .transit w && !w.pastLeaf) = some w := hw
      simp only [crossLeaf, hw']
    obtain ⟨f, hf, hfixed, -⟩ := endEvent_goneOn (s := onWindow l w.tag (fun x => { x with pastLeaf := true }) t) (l := l)
      (m := l)
    obtain ⟨htag, -, -, -, -, -, hpast, -⟩ := Window.fields_of_fixed (hfixed { w with pastLeaf := true })
    rw [hleaf, hf, onWindow_windows]
    refine ⟨f { w with pastLeaf := true }, List.mem_map_of_mem (List.mem_map.mpr ⟨w, List.mem_of_find?_eq_some hw, ?_⟩),
      htag, hpast⟩
    simp
  · refine ⟨(congrArg Mail.sense endEvent_mail).trans crossOut_sense, fun w hw => ?_, fun hnone => ?_⟩
    · obtain ⟨hmem, -, hstate⟩ := found_isIn hw
      have hopen : w.state ≠ .closing := by simp [hstate]
      rw [crossOut_passed (s := t) hw, endEvent_arbiter, endWindow_first hopen]
      exact ⟨rfl, (endWindow_closedAt (s := t) hmem hopen).endEvent.exists⟩
    · rw [crossOut_unmatched (s := t) hnone, endEvent_arbiter, endEvent_mail]
      cases side <;> exact ⟨rfl, rfl⟩
  · refine ⟨(congrArg Mail.sense endEvent_mail).trans retreat_sense, fun w hw => ?_, fun hnone => ?_⟩
    · obtain ⟨hmem, -, hstate⟩ := found_isIn hw
      have hopen : w.state ≠ .closing := by simp [hstate]
      rw [retreat_found (s := t) hw]
      refine ⟨fun hmore => ?_, fun hfirst halarm => ?_, fun hfirst halarm => ?_⟩
      · rw [if_pos hmore, endEvent_arbiter, endWindow_first hopen]
        rfl
      · have halarm' : (t.lane l).state = .alarm := halarm
        rw [if_neg (not_not_intro hfirst), if_pos halarm', endEvent_arbiter, endWindow_first hopen]
        rfl
      · have halarm' : (t.lane l).state ≠ .alarm := halarm
        rw [if_neg (not_not_intro hfirst), if_neg halarm', endEvent_arbiter, openWindow_arbiter]
        exact ⟨rfl, _, endEvent_mapped (s := t) (f := Window.reopened _) (List.mem_reverse.mp hmem) (fun _ => rfl)
          (fun _ => by simp [Window.reopened]) retreat_reopens, rfl, rfl, rfl, rfl, rfl⟩
    · rw [retreat_unmatched (s := t) hnone, endEvent_arbiter, endEvent_mail]
      exact ⟨rfl, rfl⟩
  · refine ⟨(congrArg Mail.sense endEvent_mail).trans pairSeen_sense, fun hfew => ?_, fun htwo => ?_⟩
    · rw [pairSeen_few (s := t) hfew]
      exact (raiseAlarm_raised.endEvent (m := l)).of_before (t := t) rfl rfl rfl
    · rw [pairSeen_two (s := t) htwo, endEvent_arbiter, endEvent_mail, endEvent_state]
      exact ⟨rfl, rfl, rfl⟩

/-! ## The other sense items -/

theorem obstructOn_off (h : (s.lane l).obstruction = false) : (obstructOn l s).lane l = { s.lane l with
    obstruction := true, obstructDue := if (s.lane l).state.attributes then some (s.time + 5000) else none } := by
  rw [obstructOn, if_neg (by simp [h])]
  exact State.lane_onLane_self ..

theorem obstructOn_on (h : (s.lane l).obstruction = true) : obstructOn l s = s := if_pos h

theorem obstructOn_mail : (obstructOn l s).mail = s.mail := by
  unfold obstructOn
  split <;> rfl

/-- Settles O58: each item taken and read, and a crossing in a state that attributes none. -/
theorem senseItemsTaken : Obligations.SenseItemsTaken := by
  intro l s before after hmasked hisolated
  have haddressed : (s.lane l).state.unaddressed = false := unaddressed_eq_false_iff.mpr ⟨hmasked, hisolated⟩
  let t := senseLeft (before ++ after) s
  refine ⟨fun h => ⟨_, exec_obstructOn haddressed h, ?_⟩, fun h => ⟨_, exec_obstructOff haddressed h, ?_⟩,
    fun pos z h => ⟨_, exec_senseStateUpdate haddressed h, ?_⟩, fun hnot => ⟨fun side h => ?_, fun d h => ?_,
    fun side h => ?_, fun side h => ?_, fun side h => ?_⟩⟩
  · obtain ⟨-, -, -, -, -, -, hon, hdue, -⟩ := LaneUnit.fields_of_rest
      (endEvent_rest (l := l) (m := l) (s := obstructOn l (senseLeft (before ++ after) s)))
    rw [hon, hdue, endEvent_mail, obstructOn_mail]
    cases hobstruction : (s.lane l).obstruction with
    | true =>
      rw [obstructOn_on (s := senseLeft (before ++ after) s) hobstruction]
      exact ⟨rfl, hobstruction, nofun, fun _ => rfl⟩
    | false =>
      rw [obstructOn_off (s := senseLeft (before ++ after) s) hobstruction]
      refine ⟨rfl, rfl, fun _ => ?_, nofun⟩
      change (if (s.lane l).state.attributes then some (s.time + 5000) else none) = _
      simp only [attributes_iff]
  · obtain ⟨-, -, -, -, -, -, hon, hdue, -⟩ := LaneUnit.fields_of_rest (endEvent_rest (l := l) (m := l)
      (s := (senseLeft (before ++ after) s).onLane l (fun u => { u with obstruction := false, obstructDue := none })))
    rw [hon, hdue, endEvent_mail, State.lane_onLane_self]
    exact ⟨rfl, rfl, rfl⟩
  · obtain ⟨-, -, -, -, hpos, hzones, -⟩ := LaneUnit.fields_of_rest (endEvent_rest (l := l) (m := l)
      (s := (senseLeft (before ++ after) s).onLane l (fun u => { u with leafPos := pos, zones := z })))
    rw [hpos, hzones, endEvent_mail, State.lane_onLane_self]
    exact ⟨rfl, rfl, rfl⟩
  · rw [exec_crossIn haddressed h, attributed_of_not (s := senseLeft (before ++ after) s) hnot]
    rfl
  · rw [exec_crossLeaf haddressed h, attributed_of_not (s := senseLeft (before ++ after) s) hnot]
    rfl
  · rw [exec_crossOut haddressed h, attributed_of_not (s := senseLeft (before ++ after) s) hnot]
    rfl
  · rw [exec_retreat haddressed h, attributed_of_not (s := senseLeft (before ++ after) s) hnot]
    rfl
  · rw [exec_pair haddressed h, attributed_of_not (s := senseLeft (before ++ after) s) hnot]
    rfl

end Sys2Proof.Machine
end

section
/-!
PROOFS. The lane's timers (R58, R65 to R67, R69, R73), and the removal and withdrawal of windows (R13, R50, R71).
-/
namespace Sys2Proof.Machine

variable {s t u : State} {l m : Lane} {w : Window} {g : Tag} {rd : Reader} {o : WinOutcome}

/-! ## The open, transit and obstruction timers -/

theorem exec_openTimerExpiry (hrun : s.resetHeld = false) (h : findWindow s g = some w) : exec (.openTimerExpiry g) s
    = .next (if s.due w.openDue then endEvent g.lane (endWindow g.lane w .unused s) else s) := by
  refine (running_of_not_resetHeld hrun _).trans ?_
  simp only [h]

theorem exec_transitTimerExpiry (hrun : s.resetHeld = false) (h : findWindow s g = some w) : exec (.transitTimerExpiry g) s
    = .next (if s.due w.transitDue
        then endEvent g.lane (raiseAlarm g.lane .loiter (endWindow g.lane w .stalled s)) else s) := by
  refine (running_of_not_resetHeld hrun _).trans ?_
  simp only [h]

theorem exec_obstructionTimerExpiry (hrun : s.resetHeld = false) : exec (.obstructionTimerExpiry l) s
    = .next (if s.due (s.lane l).obstructDue then
        endEvent l (raiseAlarm l .obstructed (s.onLane l (fun u => { u with obstructDue := none }))) else s) :=
  running_of_not_resetHeld hrun _

theorem exec_clearTimerExpiry (hrun : s.resetHeld = false) : exec (.clearTimerExpiry l) s
    = .next (if (s.lane l).state = .alarm ∧ s.due (s.lane l).clearDue = true then endEvent l
        (if (s.lane l).settings.alarmLatch && !(s.lane l).acknowledged then
          s.onLane l (fun u => { u with clearDue := none, awaitingReset := true }) else backToReady l s) else s) :=
  running_of_not_resetHeld hrun _

theorem exec_paceIntervalExpiry (hrun : s.resetHeld = false) : exec (.paceIntervalExpiry l) s
    = .next (if (s.lane l).windows.any (fun w => w.state == .paced && !paceHolds s l w.dir) then
        endEvent l (retestPaced l (s.lane l).windows s) else s) := running_of_not_resetHeld hrun _

theorem exec_displayHoldExpiry (hrun : s.resetHeld = false) : exec (.displayHoldExpiry l rd) s
    = .next (if s.due ((s.lane l).display rd).holdDue then
        (match ((s.lane l).display rd).waiting with
          | some i => showNow l rd i s
          | none => s.onLane l (fun u => u.onDisplay rd (fun d => { d with holdDue := none })))
      else s) := (running_of_not_resetHeld hrun _).trans rfl

theorem mem_of_findWindow (h : findWindow s g = some w) : w ∈ (s.lane g.lane).windows := List.mem_of_find?_eq_some h

/-- A window in TRANSIT that stalls (R66, R68). -/
theorem stalled_raises (hopen : w.state ≠ .closing) :
    .posting ⟨w.tag, w.cred, w.dir, .stalled⟩ ∈ (raiseAlarm l .loiter (endWindow l w .stalled s)).arbiter.first
      ∧ ((raiseAlarm l .loiter (endWindow l w .stalled s)).lane l).state = .alarm
      ∧ ((raiseAlarm l .loiter (endWindow l w .stalled s)).lane l).alarmReason = some .loiter
      ∧ ((raiseAlarm l .loiter (endWindow l w .stalled s)).lane l).counters = (s.lane l).counters.alarm .loiter := by
  obtain ⟨hstate, hreason, hcounters, -⟩ := raiseAlarm_raised (l := l) (r := .loiter) (s := endWindow l w .stalled s)
  refine ⟨raiseAlarm_firstKept l .loiter _ _ ?_, hstate, hreason, ?_⟩
  · rw [endWindow_first hopen]
    exact List.mem_append_right _ (List.mem_singleton_self _)
  · rw [hcounters, (LaneUnit.fields_of_core endWindow_core).2.2.2.1]

/-! ## The clear timer -/

/-- What the end of an event settles of the clear timer alone. -/
def LaneUnit.clear (u : LaneUnit) : Option Nat × Bool := (u.clearDue, u.awaitingReset)

theorem onLane_clear {f : LaneUnit → LaneUnit} (hf : (f (s.lane l)).clear = (s.lane l).clear) :
    ((s.onLane l f).lane m).clear = (s.lane m).clear := by
  by_cases h : m = l
  · subst h
    rw [State.lane_onLane_self, hf]
  · rw [State.lane_onLane_ne _ _ h]

theorem onDisplay_clear {f : Display → Display} :
    ((s.onLane l (fun u => u.onDisplay rd f)).lane m).clear = (s.lane m).clear :=
  onLane_clear (by cases rd <;> rfl)

theorem settleDisplay_clear : ((settleDisplay l rd s).lane m).clear = (s.lane m).clear := by
  unfold settleDisplay
  split
  · rfl
  · dsimp only
    repeat' split
    · exact onDisplay_clear
    · exact onDisplay_clear.trans onDisplay_clear
    · exact onDisplay_clear.trans onDisplay_clear

theorem settleWanted_clear : ((settleWanted l s).lane m).clear = (s.lane m).clear := by
  unfold settleWanted
  dsimp only
  split
  · rfl
  · rw [onLine_lane]
    exact onLane_clear (f := fun u => { u with wanted := _ }) rfl

theorem settleClear_awaiting {n : Nat} {u : LaneUnit} (hstate : u.state = .alarm) (hclearing : u.clearing = true)
    (h : u.awaitingReset = true) : u.settleClear n = u := by
  simp [LaneUnit.settleClear, hstate, hclearing, h]

theorem settleTravel_lane : (settleTravel l s).lane l = { s.lane l with travel := ((settleTravel l s).lane l).travel } := by
  rw [settleTravel, State.lane_onLane_self]
  split <;> rfl

/-- An alarm that awaits its reset goes on awaiting it while the lane is clear (R69). -/
theorem endEvent_awaiting (hstate : (s.lane l).state = .alarm) (hclearing : (s.lane l).clearing = true)
    (h : (s.lane l).awaitingReset = true) : ((endEvent l s).lane l).clear = (s.lane l).clear := by
  let travelled := settleTravel l s
  have htravelled : travelled.lane l = { s.lane l with travel := (travelled.lane l).travel } := settleTravel_lane
  have hstate' : (travelled.lane l).state = .alarm := by rw [htravelled]; exact hstate
  have hsettled : (travelled.onLane l (LaneUnit.settleClear travelled.time)).lane l = travelled.lane l := by
    rw [State.lane_onLane_self]
    refine settleClear_awaiting hstate' ?_ ?_
    · rw [htravelled]
      exact hclearing
    · rw [htravelled]
      exact h
  unfold endEvent
  dsimp only
  rw [settleDisplay_clear, settleDisplay_clear, settleWanted_clear, if_neg (by simp [hstate', travelled, LaneState.inService]),
    hsettled, htravelled]
  rfl

/-! ## The pace interval -/

/-- The window has gone OPEN with the open timer that starts now, and so has every window of its tag. -/
def OpenedAt (l : Lane) (w : Window) (due : Nat) (s : State) : Prop :=
  w.opening due ∈ (s.lane l).windows ∧ ∀ x ∈ (s.lane l).windows, x.tag = w.tag → x.state = .opened

/-- The due time of the open timer of a window that opens now (R59). -/
def openDueNow (l : Lane) (s : State) : Nat := s.after ((s.lane l).settings.openTime * 1000)

theorem openWindow_dueNow : openDueNow l (openWindow l w s) = openDueNow l s := by
  have hsettings : ((openWindow l w s).lane l).settings = (s.lane l).settings :=
    (LaneUnit.fields_of_rest openWindow_rest).2.1
  rw [openDueNow, hsettings]
  rfl

theorem openWindow_openedAt (h : w ∈ (s.lane l).windows ∨ w.opening (openDueNow l s) ∈ (s.lane l).windows) :
    OpenedAt l w (openDueNow l s) (openWindow l w s) := by
  rw [OpenedAt, openWindow_windows]
  refine ⟨?_, fun x hx htag => ?_⟩
  · rcases h with h | h
    · exact List.mem_map.mpr ⟨w, h, by simp [openDueNow]⟩
    · exact List.mem_map.mpr ⟨_, h, by simp [openDueNow, Window.opening]⟩
  · obtain ⟨y, -, rfl⟩ := List.mem_map.mp hx
    by_cases hy : y.tag = w.tag
    · simp [hy, Window.opening]
    · simp [hy] at htag

/-- Once the window has gone OPEN, the tests of the others leave it so, when it is the only one in PACED. -/
theorem retestPaced_openedAt {ws : List Window} (h : OpenedAt l w (openDueNow l s) s)
    (honly : ∀ x ∈ ws, x.state = .paced → x = w) : OpenedAt l w (openDueNow l s) (retestPaced l ws s) := by
  induction ws generalizing s with
  | nil => exact h
  | cons x r ih =>
    have honly' : ∀ y ∈ r, y.state = .paced → y = w := fun y hy => honly y (List.mem_cons_of_mem _ hy)
    rw [retestPaced]
    split
    · rename_i hpaced
      obtain rfl := honly x (List.mem_cons_self ..) hpaced.1
      rw [← openWindow_dueNow (w := x)]
      refine ih ?_ honly'
      rw [openWindow_dueNow]
      exact openWindow_openedAt (.inr h.1)
    · exact ih h honly'

theorem retestPaced_opens {ws : List Window} (hmem : w ∈ (s.lane l).windows) (hw : w ∈ ws) (hpaced : w.state = .paced)
    (hpace : paceHolds s l w.dir = false) (honly : ∀ x ∈ ws, x.state = .paced → x = w) :
    OpenedAt l w (openDueNow l s) (retestPaced l ws s) := by
  induction ws with
  | nil => simp at hw
  | cons x r ih =>
    have honly' : ∀ y ∈ r, y.state = .paced → y = w := fun y hy => honly y (List.mem_cons_of_mem _ hy)
    rw [retestPaced]
    by_cases hx : x = w
    · subst hx
      rw [if_pos ⟨hpaced, hpace⟩, ← openWindow_dueNow (w := x)]
      refine retestPaced_openedAt ?_ honly'
      rw [openWindow_dueNow]
      exact openWindow_openedAt (.inl hmem)
    · have hskip : ¬ (x.state = .paced ∧ paceHolds s l x.dir = false) := fun h => hx (honly x (List.mem_cons_self ..) h.1)
      rw [if_neg hskip]
      exact ih ((List.mem_cons.mp hw).resolve_left (Ne.symm hx)) honly'

theorem OpenedAt.endEvent {due : Nat} (h : OpenedAt l w due s) : w.opening due ∈ ((endEvent l s).lane l).windows :=
  endEvent_goneOn.mem h.1 fun x hx htag => by rw [h.2 x hx htag]; decide

/-! ## A display's hold -/

theorem LaneUnit.display_onDisplay {u : LaneUnit} {f : Display → Display} : (u.onDisplay rd f).display rd = f (u.display rd) := by
  cases rd <;> rfl

theorem LineUnit.show_setShow {u : LineUnit} {i : Option Indication} : (u.setShow rd i).show rd = i := by cases rd <;> rfl

theorem showNow_display {i : Indication} : ((showNow l rd i s).lane l).display rd
    = { (s.lane l).display rd with shown := some i, holdDue := some (s.time + 600), waiting := none } := by
  rw [showNow, onLine_lane, State.lane_onLane_self, LaneUnit.display_onDisplay]
  rfl

theorem showNow_show {i : Indication} : ((showNow l rd i s).line l).show rd = some i := by
  rw [showNow, State.line_onLine_self, LineUnit.show_setShow]

/-- Settles O59: each timer by whether it has run out, then what it ends. -/
theorem laneTimers : Obligations.LaneTimers := by
  intro s hrun
  refine ⟨fun g w hw => ⟨fun hearly => ?_, fun hdue hopen => ⟨_, exec_openTimerExpiry hrun hw, ?_⟩, fun hearly => ?_,
    fun hdue htransit => ⟨_, exec_transitTimerExpiry hrun hw, ?_⟩⟩, fun g hnone => ⟨?_, ?_⟩, fun l hearly => ?_,
    fun l hdue => ⟨_, exec_obstructionTimerExpiry hrun, ?_⟩, fun l hnot => ?_, fun l hstate hdue => ⟨fun hready =>
    ⟨_, exec_clearTimerExpiry hrun, ?_⟩, fun hlatch hack hclearing => ⟨_, exec_clearTimerExpiry hrun, ?_⟩⟩,
    fun l hnone => ?_, fun l w hw hpaced hpace honly => ⟨_, exec_paceIntervalExpiry hrun, ?_⟩, fun l rd hearly => ?_,
    fun l rd hdue => ⟨_, exec_displayHoldExpiry hrun, ?_⟩⟩
  · rw [exec_openTimerExpiry hrun hw, if_neg (by simp [hearly])]
  · rw [if_pos hdue, endEvent_arbiter, endWindow_first hopen]
  · rw [exec_transitTimerExpiry hrun hw, if_neg (by simp [hearly])]
  · obtain ⟨hposting, hstate, hreason, hcounters⟩ := stalled_raises (l := g.lane) (s := s) (w := w) (by simp [htransit])
    obtain ⟨hstate', -, -, -, -, -, -, -, -, hcounters', -, -, -, hreason'⟩ := LaneUnit.fields_of_rest
      (endEvent_rest (l := g.lane) (m := g.lane) (s := raiseAlarm g.lane .loiter (endWindow g.lane w .stalled s)))
    rw [if_pos hdue, endEvent_arbiter]
    exact ⟨hposting, hstate'.trans hstate, hreason'.trans hreason, hcounters'.trans hcounters⟩
  · refine (running_of_not_resetHeld hrun _).trans ?_
    simp only [hnone]
  · refine (running_of_not_resetHeld hrun _).trans ?_
    simp only [hnone]
  · rw [exec_obstructionTimerExpiry hrun, if_neg (by simp [hearly])]
  · rw [if_pos hdue]
    refine raiseAlarm_raised.endEvent.of_before ?_ ?_ rfl
    · rw [State.lane_onLane_self]
    · rw [State.lane_onLane_self]
  · rw [exec_clearTimerExpiry hrun, if_neg (by rcases hnot with h | h <;> simp [h])]
  · rw [if_pos ⟨hstate, hdue⟩, if_neg (by rcases hready with h | h <;> simp [h]), endEvent_state, backToReady_state]
  · let v := s.onLane l (fun u => { u with clearDue := none, awaitingReset := true })
    have hlane : v.lane l = { s.lane l with clearDue := none, awaitingReset := true } := State.lane_onLane_self ..
    have hclear := endEvent_awaiting (s := v) (l := l) (by rw [hlane]; exact hstate) (by rw [hlane]; exact hclearing)
      (by rw [hlane])
    rw [if_pos ⟨hstate, hdue⟩, if_pos (by simp [hlatch, hack]), endEvent_state]
    rw [hlane] at hclear
    obtain ⟨hdue', hawaiting⟩ := Prod.mk.inj hclear
    exact ⟨(congrArg LaneUnit.state hlane).trans hstate, hawaiting, hdue'⟩
  · rw [exec_paceIntervalExpiry hrun, if_neg ?_]
    simp only [List.any_eq_true, Bool.and_eq_true, beq_iff_eq, Bool.not_eq_true', not_exists, not_and]
    exact fun w hw hpaced => by simp [hnone w hw hpaced]
  · have hany : (s.lane l).windows.any (fun w => w.state == .paced && !paceHolds s l w.dir) = true :=
      List.any_eq_true.mpr ⟨w, hw, by simp [hpaced, hpace]⟩
    rw [if_pos hany]
    exact ⟨_, (retestPaced_opens hw hw hpaced hpace honly).endEvent, rfl, rfl, rfl⟩
  · rw [exec_displayHoldExpiry hrun, if_neg (by simp [hearly])]
  · rw [if_pos hdue]
    cases hwaiting : ((s.lane l).display rd).waiting with
    | none =>
      refine ⟨fun _ => ⟨?_, rfl⟩, nofun⟩
      dsimp only
      rw [State.lane_onLane_self, LaneUnit.display_onDisplay]
    | some i =>
      refine ⟨nofun, fun j hj => ?_⟩
      obtain rfl := Option.some.inj hj
      dsimp only
      rw [showNow_display, showNow_show]
      exact ⟨rfl, rfl, rfl, rfl⟩

/-! ## The removal of a window -/

/-- The results that lie while the first one of a lane is taken. -/
def resultTaken (left : List PostingResult) (s : State) : State := s.onMail (fun m => { m with results := left })

theorem exec_windowRemoval {r : PostingResult} {before after : List PostingResult} (hrun : s.resetHeld = false)
    (hm : s.mail.results = before ++ r :: after) (hbefore : ∀ y ∈ before, y.tag.lane ≠ r.tag.lane) :
    exec (.windowRemoval r.tag.lane) s = .next (match findWindow s r.tag with
      | some w => removeWindow r.tag.lane w r (resultTaken (before ++ after) s)
      | none => resultTaken (before ++ after) s) := by
  refine (running_of_not_resetHeld hrun _).trans ?_
  rw [hm, takeFirst_split (p := fun y : PostingResult => y.tag.lane == r.tag.lane) (beq_self_eq_true r.tag.lane) fun y hy =>
    beq_eq_false_iff_ne.mpr (hbefore y hy)]
  rfl

theorem exec_windowRemoval_none {r : PostingResult} {before after : List PostingResult} (hrun : s.resetHeld = false)
    (hm : s.mail.results = before ++ r :: after) (hbefore : ∀ y ∈ before, y.tag.lane ≠ r.tag.lane)
    (hnone : findWindow s r.tag = none) :
    exec (.windowRemoval r.tag.lane) s = .next (resultTaken (before ++ after) s) := by
  rw [exec_windowRemoval hrun hm hbefore, hnone]

theorem exec_windowRemoval_some {r : PostingResult} {before after : List PostingResult} (hrun : s.resetHeld = false)
    (hm : s.mail.results = before ++ r :: after) (hbefore : ∀ y ∈ before, y.tag.lane ≠ r.tag.lane)
    (hfound : findWindow s r.tag = some w) :
    exec (.windowRemoval r.tag.lane) s = .next (removeWindow r.tag.lane w r (resultTaken (before ++ after) s)) := by
  rw [exec_windowRemoval hrun hm hbefore, hfound]

/-- The window gone from its lane's list, with its call's end and its record (R71, R107). -/
def windowGone (l : Lane) (w : Window) (r : PostingResult) (s : State) : State :=
  windowRecord w (w.outcome.getD .unused) r.gone (endCall w
    (s.onLane l (fun u => { u with windows := u.windows.filter (fun x => x.tag != w.tag) })))

/-- A PASSED window handed on (R71). -/
def passageHanded (w : Window) (r : PostingResult) (s : State) : State :=
  if w.outcome.getD .unused = .passed then handPassage w r s else s

/-- An empty list reported (R125). -/
def emptyReported (l : Lane) (s : State) : State := if (s.lane l).windows = [] then report l .listEmpty s else s

theorem removeWindow_eq {r : PostingResult} : removeWindow l w r s
    = settleLane l (settleServing l (emptyReported l (passageHanded w r (windowGone l w r s)))) := rfl

theorem windowGone_lane {r : PostingResult} : (windowGone l w r s).lane l
    = { s.lane l with windows := (s.lane l).windows.filter (fun x => x.tag != w.tag) } := by
  rw [windowGone, windowRecord_lane, endCall_lane, State.lane_onLane_self]

theorem passageHanded_lane {r : PostingResult} : (passageHanded w r s).lane m = s.lane m := by
  unfold passageHanded
  split <;> rfl

theorem emptyReported_lane : (emptyReported l s).lane m = s.lane m := by
  unfold emptyReported
  split <;> rfl

/-- The lane when its window has gone, before its state follows (R50, R71). -/
theorem handed_lane {r : PostingResult} : (emptyReported l (passageHanded w r (windowGone l w r s))).lane l
    = { s.lane l with windows := (s.lane l).windows.filter (fun x => x.tag != w.tag) } := by
  rw [emptyReported_lane, passageHanded_lane, windowGone_lane]

theorem settleServing_windows : ((settleServing l s).lane m).windows = (s.lane m).windows := by
  unfold settleServing
  split
  · simp
  · rfl

theorem settleServing_ready (hstate : (s.lane l).state = .serving) (h : (s.lane l).windows = []) :
    ((settleServing l s).lane l).state = .ready := by
  rw [settleServing, if_pos ⟨hstate, h⟩, askBoth_state, changeState_state]

theorem settleServing_recordsKept (l : Lane) (s : State) : RecordsKept s (settleServing l s) := by
  unfold settleServing
  split
  · exact (changeState_recordsKept l .ready s).to_same (by simp)
  · exact .refl s

theorem settleLane_goneOn : GoneOn (s.lane l).windows ((settleLane l s).lane l).windows := by
  have hgone := endEvent_goneOn (s := offerPlaces l s) (l := l) (m := l)
  rwa [offerPlaces_windows] at hgone

theorem removeWindow_find {r : PostingResult} (htag : w.tag = g) :
    findWindow (removeWindow g.lane w r s) g = none := by
  have hgone : (findWindow (removeWindow g.lane w r s) g).map Window.fixed
      = (((s.lane g.lane).windows.filter (fun x => x.tag != w.tag)).find? (fun x => x.tag == g)).map Window.fixed := by
    rw [removeWindow_eq, findWindow, settleLane_goneOn.find, settleServing_windows, handed_lane]
  have hnone : ((s.lane g.lane).windows.filter (fun x => x.tag != w.tag)).find? (fun x => x.tag == g) = none :=
    List.find?_eq_none.mpr fun x hx => by simpa [htag] using (List.mem_filter.mp hx).2
  rw [hnone] at hgone
  exact Option.map_eq_none_iff.mp hgone

theorem removeWindow_ready {r : PostingResult} (hstate : (s.lane l).state = .serving)
    (h : ∀ x ∈ (s.lane l).windows, x.tag = w.tag) : ((removeWindow l w r s).lane l).state = .ready := by
  rw [removeWindow_eq, (LaneUnit.fields_of_frame settleLane_frame).1]
  refine settleServing_ready ?_ ?_
  · rw [handed_lane]
    exact hstate
  · rw [handed_lane]
    exact List.filter_eq_nil_iff.mpr fun x hx => by simp [h x hx]

/-- What a removal hands on to the occupancy and escort units (R71). -/
theorem removeWindow_handed {r : PostingResult} : (removeWindow l w r s).mail.passages
      = (passageHanded w r s).mail.passages
    ∧ (removeWindow l w r s).mail.sponsors = (passageHanded w r s).mail.sponsors := by
  have hafter (b : Block) (v : State) (hb : b = .passages ∨ b = .sponsors) :
      b.same v (settleLane l (settleServing l (emptyReported l v))) := by
    rcases hb with rfl | rfl
    · exact (settleLane_keeps (b := .passages) (by simp)).mpr ((settleServing_keeps (b := .passages) (by simp)).mpr
        (by unfold emptyReported; split <;> rfl))
    · exact (settleLane_keeps (b := .sponsors) (by simp)).mpr ((settleServing_keeps (b := .sponsors) (by simp)).mpr
        (by unfold emptyReported; split <;> rfl))
  have hgone (b : Block) (hb : b = .passages ∨ b = .sponsors) : b.same s (windowGone l w r s) := by
    rcases hb with rfl | rfl
    · exact (endCall_keeps (b := .passages) (w := w) (by simp)).mpr rfl
    · exact (endCall_keeps (b := .sponsors) (w := w) (by simp)).mpr rfl
  have hpassages : (windowGone l w r s).mail.passages = s.mail.passages := hgone .passages (.inl rfl)
  have hsponsors : (windowGone l w r s).mail.sponsors = s.mail.sponsors := hgone .sponsors (.inr rfl)
  rw [removeWindow_eq]
  refine ⟨Eq.trans (hafter .passages _ (.inl rfl)) ?_, Eq.trans (hafter .sponsors _ (.inr rfl)) ?_⟩
  · unfold passageHanded
    split
    · simp only [handPassage, State.onMail, hpassages]
    · exact hpassages
  · unfold passageHanded
    split
    · simp only [handPassage, State.onMail, hsponsors]
    · exact hsponsors

theorem windowGone_record {r : PostingResult} (h : w.outcome = some .passed) : (Source.sequencer w.tag.lane, ({
    time := s.stamp, code := .passage, lane := some w.tag.lane, tag := some w.tag, cred := some w.cred, cls := some w.cls,
    dir := some w.dir, origin := some w.origin,
    detail := .items { passback := w.passback, entryGone := r.gone } [] } : Record))
      ∈ (windowGone l w r s).mail.records := by
  have hclock : (endCall w (s.onLane l (fun u => { u with windows := u.windows.filter (fun x => x.tag != w.tag) }))).clock
      = s.clock := (endCall_keeps (b := .clock) (by simp)).mpr rfl
  rw [windowGone, h, ← stamp_of_clock hclock]
  exact List.mem_append_right _ (List.mem_singleton_self _)

theorem removeWindow_recordsKept {r : PostingResult} : RecordsKept (windowGone l w r s) (removeWindow l w r s) := by
  have hhanded : RecordsKept (windowGone l w r s) (passageHanded w r (windowGone l w r s)) := .of_same (by
    unfold passageHanded
    split <;> rfl)
  have hreported (v : State) : RecordsKept v (emptyReported l v) := .of_same (by
    unfold emptyReported
    split <;> rfl)
  rw [removeWindow_eq]
  exact ((hhanded.trans (hreported _)).trans (settleServing_recordsKept l _)).to_same (by simp)

theorem passageHanded_of_passed {r : PostingResult} (h : w.outcome = some .passed) :
    passageHanded w r s = handPassage w r s := if_pos (by rw [h]; rfl)

theorem passageHanded_of_not {r : PostingResult} (h : w.outcome = some o) (hne : o ≠ .passed) :
    passageHanded w r s = s := if_neg (by rw [h]; exact hne)

theorem removeWindow_passed {r : PostingResult} (h : w.outcome = some .passed) :
    (removeWindow w.tag.lane w r s).mail.passages = s.mail.passages ++ [⟨w.tag.lane, w.cls, w.dir⟩]
      ∧ (removeWindow w.tag.lane w r s).mail.sponsors
        = s.mail.sponsors ++ [⟨w.tag.lane, w.cred, w.cls, w.dir, r.gone, r.refs⟩] := by
  rw [removeWindow_handed.1, removeWindow_handed.2, passageHanded_of_passed h]
  exact ⟨rfl, rfl⟩

theorem removeWindow_results {r : PostingResult} : (removeWindow l w r s).mail.results = s.mail.results :=
  (removeWindow_keeps (b := .results) (by simp)).mpr rfl

theorem removeWindow_not_passed {r : PostingResult} (h : w.outcome = some o) (hne : o ≠ .passed) :
    (removeWindow l w r s).mail.passages = s.mail.passages ∧ (removeWindow l w r s).mail.sponsors = s.mail.sponsors := by
  rw [removeWindow_handed.1, removeWindow_handed.2, passageHanded_of_not h hne]
  exact ⟨rfl, rfl⟩

/-! ## A withdrawal at its lane -/

/-- A withdrawal taken at its lane (R13). -/
def withdrawalTaken (g : Tag) (s : State) : State :=
  endEvent g.lane (match findWindow s g with
    | some w => if w.state.beforeTransit then endWindow g.lane w .withdrawn s else s
    | none => s)

theorem exec_windowWithdrawal {before after : List Tag} (hrun : s.resetHeld = false)
    (hm : s.mail.withdrawals = before ++ g :: after) (hbefore : ∀ y ∈ before, y.lane ≠ g.lane) :
    exec (.windowWithdrawal g.lane) s
      = .next (withdrawalTaken g (s.onMail (fun m => { m with withdrawals := before ++ after }))) := by
  refine (running_of_not_resetHeld hrun _).trans ?_
  rw [hm, takeFirst_split (p := fun y : Tag => y.lane == g.lane) (beq_self_eq_true g.lane) fun y hy =>
    beq_eq_false_iff_ne.mpr (hbefore y hy)]
  rfl

theorem withdrawalTaken_ends (h : findWindow s g = some w) (hbefore : w.state.beforeTransit = true) :
    withdrawalTaken g s = endEvent g.lane (endWindow g.lane w .withdrawn s) := by
  simp only [withdrawalTaken, h, hbefore, if_true]

theorem withdrawalTaken_kept (h : ∀ w, findWindow s g = some w → w.state.beforeTransit = false) :
    withdrawalTaken g s = endEvent g.lane s := by
  cases hw : findWindow s g with
  | none => simp only [withdrawalTaken, hw]
  | some w => simp [withdrawalTaken, hw, h w hw]

theorem withdrawalTaken_withdrawals : (withdrawalTaken g s).mail.withdrawals = s.mail.withdrawals := by
  rw [withdrawalTaken, endEvent_mail]
  split
  · split
    · exact (endWindow_keeps (b := .withdrawals) (by simp)).mpr rfl
    · rfl
  · rfl

/-- Settles O60: the removal by the window its result names, and the withdrawal by its window's state. -/
theorem windowsRemovedAndWithdrawn : Obligations.WindowsRemovedAndWithdrawn := by
  intro s hrun
  refine ⟨fun r before after hm hbefore => ?_, fun g before after hm hbefore =>
    ⟨_, exec_windowWithdrawal hrun hm hbefore, withdrawalTaken_withdrawals, fun w hw hstate => ?_, fun hnot => ?_⟩⟩
  · cases hfound : findWindow s r.tag with
    | none =>
      exact ⟨_, exec_windowRemoval_none hrun hm hbefore hfound, rfl, fun _ => rfl, fun _ h => absurd h (by simp)⟩
    | some w =>
      refine ⟨_, exec_windowRemoval_some hrun hm hbefore hfound, removeWindow_results, fun h => absurd h (by simp),
        fun x hx => ?_⟩
      obtain rfl := Option.some.inj hx
      have htag : w.tag = r.tag := findWindow_tag hfound
      rw [← htag]
      refine ⟨removeWindow_find rfl, fun hpassed => ?_, fun o ho hne => removeWindow_not_passed ho hne, fun hstate honly =>
        removeWindow_ready (s := resultTaken (before ++ after) s) hstate honly⟩
      obtain ⟨hpassages, hsponsors⟩ := removeWindow_passed (s := resultTaken (before ++ after) s) (r := r) hpassed
      exact ⟨hpassages, hsponsors, removeWindow_recordsKept _
        (windowGone_record (s := resultTaken (before ++ after) s) hpassed)⟩
  · rw [withdrawalTaken_ends (s := s.onMail (fun m => { m with withdrawals := before ++ after })) hw hstate, endEvent_arbiter,
      endWindow_first (WinState.ne_closing_of_beforeTransit hstate), findWindow_tag hw]
    rfl
  · rw [withdrawalTaken_kept (s := s.onMail (fun m => { m with withdrawals := before ++ after })) hnot, endEvent_arbiter]
    rfl

end Sys2Proof.Machine
end

section
/-!
PROOFS. The ends of escort records (R90) and the escort release at the table (R86, R87).
-/
namespace Sys2Proof.Machine

variable {s t : State} {l m : Lane} {v c : Cred} {e : Entry} {ph : WaitPhase}

/-! ## A WAIT or a credit that the table ends -/

/-- The messages to the escort unit that lie while the first is taken. -/
def escortEndTaken (rest : List EscortEnd) (s : State) : State := s.onMail (fun m => { m with escortEnds := rest })

theorem exec_escortEndMessage_wait {rest : List EscortEnd} (hrun : s.resetHeld = false)
    (hm : s.mail.escortEnds = .wait v :: rest) :
    exec .escortEndMessage s = .next (withdrawWait v (escortEndTaken rest s)) := by
  refine (running_of_not_resetHeld hrun _).trans ?_
  simp only [hm]
  rfl

theorem exec_escortEndMessage_credit {rest : List EscortEnd} (hrun : s.resetHeld = false)
    (hm : s.mail.escortEnds = .credit c :: rest) :
    exec .escortEndMessage s = .next (removeCredit c (escortEndTaken rest s)) := by
  refine (running_of_not_resetHeld hrun _).trans ?_
  simp only [hm]
  rfl

theorem withdrawWait_of_none (h : s.waitOf v = none) : withdrawWait v s = s := by
  simp only [withdrawWait, h]

theorem withdrawWait_table : (withdrawWait v s).table = s.table :=
  (withdrawWait_keeps (b := .table) (by simp [everyLane])).mpr rfl

theorem withdrawWait_escortEnds : (withdrawWait v s).mail.escortEnds = s.mail.escortEnds :=
  (withdrawWait_keeps (b := .escortEnds) (by simp [everyLane])).mpr rfl

theorem removeCredit_escortEnds : (removeCredit c s).mail.escortEnds = s.mail.escortEnds := by
  unfold removeCredit
  split <;> rfl

theorem hasCredit_removeCredit : (removeCredit c s).hasCredit c = false := by
  unfold removeCredit
  split
  · simp
  · rename_i h
    simpa using h

theorem removeCredit_records : (removeCredit c s).mail.records = s.mail.records ++ (if s.hasCredit c then
    [(.escort, { time := s.stamp, code := .escort .creditRemoved, cred := some c })] else []) := by
  unfold removeCredit
  split
  · rfl
  · simp

/-! ## A release that makes no window -/

theorem settleLane_table : (settleLane l s).table = s.table := (settleLane_keeps (b := .table) (by simp)).mpr rfl

theorem backToPending_table : (backToPending v s).table = s.table :=
  (backToPending_keeps (b := .table) (by simp [everyLane])).mpr rfl

theorem endEvent_table : (endEvent l s).table = s.table := (endEvent_keeps (b := .table) (by simp)).mpr rfl

theorem refuseWait_table : (refuseWait v l s).table = s.table := (refuseWait_keeps (b := .table) (by simp)).mpr rfl

@[simp] theorem refuseWait_frame : ((refuseWait v l s).lane m).frame = (s.lane m).frame := by simp [refuseWait]

theorem waitOf_askEscort {i : Indication} : (askEscort l i s).waitOf v = s.waitOf v := waitOf_of_same (by simp)

theorem waitOf_escortRecord {k : EscortCode} {o : Option Lane} {d : Option Cred} {q : Detail} :
    (escortRecord k o d q s).waitOf v = s.waitOf v := waitOf_of_same (by simp)

theorem waitOf_refuseWait : (refuseWait v l s).waitOf v = none := by
  rw [refuseWait, waitOf_askEscort, waitOf_escortRecord, waitOf_dropWait]

theorem waitOf_settleLane (h : s.waitOf v = none) : (settleLane l s).waitOf v = none := by
  rw [settleLane, waitOf_endEvent, waitOf_offerPlaces h]

/-- A release that its lane does not take, or whose WAIT is not in RELEASING there, makes no window (R87). -/
theorem releaseAtTable_sent_back (h : laneTakesRelease s l = false ∨ releasingAt s l v = false) :
    (releaseAtTable v l s).table = s.table
      ∧ ((releaseAtTable v l s).lane l).windows.length = (s.lane l).windows.length := by
  have hlength (x : State) (hx : (x.lane l).frame = (s.lane l).frame) :
      (x.lane l).windows.length = (s.lane l).windows.length := (LaneUnit.fields_of_frame hx).2.1
  unfold releaseAtTable
  split
  · refine ⟨settleLane_table.trans ?_, hlength _ (settleLane_frame.trans ?_)⟩
    · split
      · exact backToPending_table
      · rfl
    · split
      · exact backToPending_frame
      · rfl
  · rename_i htakes
    have hreleasing : releasingAt s l v = false := h.resolve_left (by simpa using htakes)
    rw [if_pos (by simp [hreleasing])]
    exact ⟨settleLane_table.trans (endEvent_table.trans backToPending_table),
      hlength _ (settleLane_frame.trans (endEvent_frame.trans backToPending_frame))⟩

theorem releaseAtTable_tested (htakes : laneTakesRelease s l = true) (hreleasing : releasingAt s l v = true) :
    releaseAtTable v l s = match s.entry v with
      | some e => if e.claim = some .wait then endEvent l (releaseInto e l s) else settleLane l (refuseWait v l s)
      | none => settleLane l (refuseWait v l s) := by
  rw [releaseAtTable, if_neg (by simp [htakes]), if_neg (by simp [hreleasing])] <;> rfl

theorem releaseAtTable_refuses (htakes : laneTakesRelease s l = true) (hreleasing : releasingAt s l v = true)
    (h : ∀ e, s.entry v = some e → e.claim ≠ some .wait) :
    releaseAtTable v l s = settleLane l (refuseWait v l s) := by
  rw [releaseAtTable_tested htakes hreleasing]
  cases he : s.entry v with
  | none => rfl
  | some e => exact if_neg (h e he)

theorem releaseAtTable_releases (htakes : laneTakesRelease s l = true) (hreleasing : releasingAt s l v = true)
    (he : s.entry v = some e) (hclaim : e.claim = some .wait) :
    releaseAtTable v l s = endEvent l (releaseInto e l s) := by
  rw [releaseAtTable_tested htakes hreleasing, he]
  exact if_pos hclaim

/-! ## A release into a window -/

/-- The release as its record stands, before its window (R87). -/
def releaseRecorded (e : Entry) (l : Lane) (s : State) : State :=
  handOver .escort { time := s.stamp, code := .escort .released, lane := some l, tag := some ⟨l, (s.lane l).nextSerial⟩,
                     cred := some e.cred, cls := some e.cls, dir := some .entry, detail := .cred (waitSponsor s e.cred) }
    (dropWait e.cred s)

theorem releaseInto_eq : releaseInto e l s = createWindow l e .entry .escortRelease false (releaseRecorded e l s) := rfl

theorem releaseInto_windows : ((releaseInto e l s).lane l).windows.length = (s.lane l).windows.length + 1 := by
  rw [releaseInto_eq, createWindow_windows, List.length_append]
  rfl

theorem releaseInto_entry (he : s.entry e.cred = some e) : (releaseInto e l s).entry e.cred
    = some { e with claim := some (.window ⟨l, (s.lane l).nextSerial⟩) } := by
  have hentry : (releaseRecorded e l s).entry e.cred = some e := he
  rw [releaseInto_eq, createWindow_entry, if_pos rfl, hentry]
  rfl

theorem waitOf_releaseInto : (releaseInto e l s).waitOf e.cred = none := by
  have hsame : Block.escort.same (releaseRecorded e l s) (releaseInto e l s) := (createWindow_keeps (by simp)).mpr rfl
  rw [waitOf_of_same hsame]
  exact waitOf_dropWait (s := s)

theorem exec_escortRelease {rest : List SecondOp} (hrun : s.resetHeld = false) (hfirst : s.arbiter.first = [])
    (hsecond : s.arbiter.second = .release v l :: rest) :
    exec .escortRelease s = .next (releaseAtTable v l (popSecond s)) := by
  refine (running_of_not_resetHeld hrun _).trans ?_
  simp only [secondTurn, hfirst, hsecond, List.isEmpty_nil, if_true, List.head?_cons]

/-- Settles O47: the messages by the record they end, and the release by its three tests. -/
theorem escortEndsAndReleases : Obligations.EscortEndsAndReleases := by
  intro s hrun
  refine ⟨fun v rest hm => ⟨_, exec_escortEndMessage_wait hrun hm, withdrawWait_escortEnds, waitOf_withdrawWait,
    withdrawWait_table, fun hnone => ?_⟩, fun c rest hm => ⟨_, exec_escortEndMessage_credit hrun hm, removeCredit_escortEnds,
    hasCredit_removeCredit, removeCredit_records⟩, fun v l rest hfirst hsecond => ⟨_, exec_escortRelease hrun hfirst hsecond,
    fun htakes hreleasing e he hclaim => ?_, fun htakes hreleasing hnot => ?_,
    fun h => releaseAtTable_sent_back (s := popSecond s) h⟩⟩
  · rw [withdrawWait_of_none (s := escortEndTaken rest s) hnone]
    exact ⟨rfl, rfl⟩
  · obtain rfl : e.cred = v := (findEntry_some he).2
    rw [releaseAtTable_releases (s := popSecond s) htakes hreleasing he hclaim, entry_of_table endEvent_table, waitOf_endEvent]
    exact ⟨endEvent_goneOn.length_eq.trans (releaseInto_windows (s := popSecond s)), releaseInto_entry (s := popSecond s) he,
      waitOf_releaseInto⟩
  · rw [releaseAtTable_refuses (s := popSecond s) htakes hreleasing hnot]
    exact ⟨settleLane_table.trans refuseWait_table, waitOf_settleLane waitOf_refuseWait,
      (LaneUnit.fields_of_frame (settleLane_frame.trans refuseWait_frame)).2.1⟩

end Sys2Proof.Machine
end

section
/-!
PROOFS. The records of the escort list in time (R83 to R85, R91 to R94).
-/
namespace Sys2Proof.Machine

variable {s t : State} {l m : Lane} {v c sp : Cred} {ph : WaitPhase} {st : Nat}

/-! ## Expiries (R83) -/

theorem visitor_of_waitOf (h : s.waitOf c = some (.wait v sp l st ph)) : v = c := by
  simpa [isWaitOf] using List.find?_some h

theorem exec_escortWaitExpiry (hrun : s.resetHeld = false) {r : EscortRec} (h : s.waitOf c = some r) :
    exec (.escortWaitExpiry c) s = .next (if r.expired s then timeoutWait c s else s) := by
  refine (running_of_not_resetHeld hrun _).trans ?_
  simp only [h]

theorem exec_creditExpiry (hrun : s.resetHeld = false) (h : s.escort.list.find? (isCreditOf c) = some (.credit v l st)) :
    exec (.creditExpiry c) s = .next (if intervalPassed s st then expireCredit v l s else s) := by
  refine (running_of_not_resetHeld hrun _).trans ?_
  simp only [h]

theorem intervalPassed_iff : intervalPassed s st = true ↔ st + s.escort.interval * 1000 ≤ s.time := decide_eq_true_iff

theorem wait_expired_iff : (EscortRec.wait v sp l st ph).expired s = true
    ↔ ph ≠ .releasing ∧ st + s.escort.interval * 1000 ≤ s.time := by
  simp [EscortRec.expired, intervalPassed_iff]

theorem credit_expired_iff : (EscortRec.credit c l st).expired s = true ↔ st + s.escort.interval * 1000 ≤ s.time :=
  intervalPassed_iff

theorem timeoutWait_eq (h : s.waitOf c = some (.wait v sp l st ph)) :
    timeoutWait c s = afterWait l ph (expireWait c sp l s) := by
  simp only [timeoutWait, h]

theorem waitOf_expireWait : (expireWait v sp l s).waitOf v = none := by
  have hsame : Block.escort.same (dropWait v s) (expireWait v sp l s) := by simp [expireWait]
  rw [waitOf_of_same hsame, waitOf_dropWait]

theorem askEscort_arbiter {i : Indication} : (askEscort l i s).arbiter = s.arbiter :=
  (askEscort_keeps (b := .arbiter) (by simp)).mpr rfl

theorem expireWait_first : (expireWait v sp l s).arbiter.first = s.arbiter.first ++ [.claimRelease v] := by
  rw [expireWait, askEscort_arbiter]
  rfl

theorem expireWait_records : (expireWait v sp l s).mail.records = s.mail.records ++ [(.escort,
    { time := s.stamp, code := .escort .escortTimeout, lane := some l, cred := some v, detail := .cred sp })] := by
  rw [expireWait, askEscort_mail]
  rfl

theorem offerPlace_first : (offerPlace l s).arbiter.first = s.arbiter.first := by
  unfold offerPlace
  repeat' split
  all_goals rfl

theorem afterWait_first : (afterWait l ph s).arbiter.first = s.arbiter.first := by
  unfold afterWait settleLane offerPlaces
  split
  · rw [endEvent_arbiter, offerPlace_first, offerPlace_first]
  · rw [endEvent_arbiter]

theorem afterWait_records : (afterWait l ph s).mail.records = s.mail.records :=
  (afterWait_keeps (b := .records) (by simp)).mpr rfl

/-! ## The release of a sponsor's waits (R85) -/

/-- One WAIT released: its phase, its record, the indication asked for, and the lane told (R85, R94). -/
def waitReleased (v sp : Cred) (l : Lane) (s : State) : State :=
  (askEscort l .wait (escortRecord .releasePending (some l) (some v) (.cred sp)
    (onEscort (setPhase v .releasePending) s))).onMail (fun m => { m with releases := m.releases ++ [(l, v)] })

theorem releaseWaits_waiting {list : List EscortRec} : releaseWaits c (.wait v sp l st .waiting :: list) s
    = releaseWaits c list (if sp = c then waitReleased v sp l s else s) := rfl

/-- What each release keeps, the release of all keeps. -/
theorem releaseWaits_kept {P : State → Prop} (hstep : ∀ v sp m x, P x → P (waitReleased v sp m x)) {list : List EscortRec}
    (h : P s) : P (releaseWaits c list s) := by
  induction list generalizing s with
  | nil => exact h
  | cons r rest ih =>
    cases r with
    | credit x m st => exact ih h
    | wait v sp m st ph =>
      cases ph with
      | waiting =>
        rw [releaseWaits_waiting]
        refine ih ?_
        split
        · exact hstep _ _ _ _ h
        · exact h
      | releasePending => exact ih h
      | releasing => exact ih h

/-- What the release of one WAIT makes of a condition that the others keep, stands after the release of all. -/
theorem releaseWaits_visits {P Q : State → Prop} (hmade : ∀ x, Q x → P (waitReleased v c l x))
    (hP : ∀ v sp m x, P x → P (waitReleased v sp m x)) (hQ : ∀ v sp m x, Q x → Q (waitReleased v sp m x))
    {list : List EscortRec} (hmem : .wait v c l st .waiting ∈ list) (h : Q s) : P (releaseWaits c list s) := by
  induction list generalizing s with
  | nil => simp at hmem
  | cons r rest ih =>
    rcases List.mem_cons.mp hmem with rfl | hrest
    · rw [releaseWaits_waiting, if_pos rfl]
      exact releaseWaits_kept hP (hmade s h)
    · cases r with
      | credit x m st => exact ih hrest h
      | wait v sp m st ph =>
        cases ph with
        | waiting =>
          rw [releaseWaits_waiting]
          refine ih hrest ?_
          split
          · exact hQ _ _ _ _ h
          · exact h
        | releasePending => exact ih hrest h
        | releasing => exact ih hrest h

theorem waitReleased_list : (waitReleased v sp l s).escort.list = setPhase v .releasePending s.escort.list := by
  change (askEscort l .wait _).escort.list = _
  rw [askEscort_escort]
  rfl

theorem waitReleased_releases : (waitReleased v sp l s).mail.releases = s.mail.releases ++ [(l, v)] := by
  simp only [waitReleased, State.onMail, askEscort_mail]
  rfl

theorem askEscort_lane_of_lane {i : Indication} (h : ∀ k, t.lane k = s.lane k) :
    (askEscort l i t).lane m = (askEscort l i s).lane m := by
  unfold askEscort
  rw [h l]
  split
  · by_cases hm : m = l
    · rw [ask, ask, hm, State.lane_onLane_self, State.lane_onLane_self, h l]
    · rw [ask, ask, State.lane_onLane_ne _ _ hm, State.lane_onLane_ne _ _ hm, h m]
  · exact h m

theorem waitReleased_lane : (waitReleased v sp l s).lane m = (askEscort l .wait s).lane m := by
  exact askEscort_lane_of_lane fun _ => rfl

theorem waitReleased_line : (waitReleased v sp l s).line m = s.line m := by
  change (askEscort l .wait _).line m = _
  exact (askEscort_keeps (b := .line m) (by simp)).mpr rfl

/-- A pending WAIT stays pending, whoever's phase is set to it. -/
theorem pending_mem_setPhase {x : Cred} {list : List EscortRec} (h : .wait v sp l st .releasePending ∈ list) :
    .wait v sp l st .releasePending ∈ setPhase x .releasePending list :=
  List.mem_map.mpr ⟨_, h, by dsimp only; split <;> rfl⟩

theorem waiting_mem_setPhase {x : Cred} {list : List EscortRec} (h : .wait v sp l st .waiting ∈ list) :
    .wait v sp l st .waiting ∈ setPhase x .releasePending list
      ∨ .wait v sp l st .releasePending ∈ setPhase x .releasePending list := by
  by_cases hv : v = x
  · exact .inr (List.mem_map.mpr ⟨_, h, by simp [hv]⟩)
  · exact .inl (List.mem_map.mpr ⟨_, h, by simp [hv]⟩)

/-- A waiting WAIT of the sponsor, or one already pending. -/
def WaitsOrPending (v sp : Cred) (l : Lane) (st : Nat) (s : State) : Prop :=
  .wait v sp l st .waiting ∈ s.escort.list ∨ .wait v sp l st .releasePending ∈ s.escort.list

theorem WaitsOrPending.released {x y : Cred} (h : WaitsOrPending v sp l st s) :
    WaitsOrPending v sp l st (waitReleased x y m s) := by
  rw [WaitsOrPending, waitReleased_list]
  exact h.elim waiting_mem_setPhase fun k => .inr (pending_mem_setPhase k)

theorem releaseWaits_pending {list : List EscortRec} (hmem : .wait v c l st .waiting ∈ list)
    (h : .wait v c l st .waiting ∈ s.escort.list) : .wait v c l st .releasePending ∈ (releaseWaits c list s).escort.list := by
  refine releaseWaits_visits (Q := WaitsOrPending v c l st) (P := fun x => .wait v c l st .releasePending ∈ x.escort.list)
    (fun x hx => ?_) (fun _ _ _ x hx => ?_) (fun _ _ _ x hx => hx.released) hmem (.inl h)
  · rw [waitReleased_list]
    rcases hx with hx | hx
    · exact List.mem_map.mpr ⟨_, hx, by simp⟩
    · exact pending_mem_setPhase hx
  · rw [waitReleased_list]
    exact pending_mem_setPhase hx

theorem releaseWaits_told {list : List EscortRec} (hmem : .wait v c l st .waiting ∈ list) :
    (l, v) ∈ (releaseWaits c list s).mail.releases := by
  refine releaseWaits_visits (Q := fun _ => True) (P := fun x => (l, v) ∈ x.mail.releases)
    (fun x _ => ?_) (fun _ _ _ x hx => ?_) (fun _ _ _ _ _ => trivial) hmem trivial
  · rw [waitReleased_releases]
    exact List.mem_append_right _ (List.mem_singleton_self _)
  · rw [waitReleased_releases]
    exact List.mem_append_left _ hx

/-! ## WAIT at the lanes' outer displays (R73, R94) -/

/-- What a release of waits leaves of a lane: its state, and its outer display but for what is asked there. -/
def outerAsIs (l : Lane) (s : State) : LaneState × Option Indication × Option Nat × Option Indication × LineUnit :=
  ((s.lane l).state, (s.lane l).outer.shown, (s.lane l).outer.holdDue, (s.lane l).outer.waiting, s.line l)

theorem askEscort_outer {i : Indication} (hin : (s.lane l).state.inService = true) :
    ((askEscort l i s).lane l).outer = { (s.lane l).outer with asked := some i } := by
  rw [askEscort, if_pos hin, ask, State.lane_onLane_self]
  rfl

theorem askEscort_elsewhere {i : Indication} (h : m ≠ l) : (askEscort l i s).lane m = s.lane m :=
  (askEscort_keeps (b := .lane m) (by simpa using h)).mpr rfl

theorem waitReleased_asIs : outerAsIs m (waitReleased v sp l s) = outerAsIs m s := by
  unfold outerAsIs
  rw [waitReleased_lane, waitReleased_line]
  by_cases hm : m = l
  · subst hm
    unfold askEscort
    split
    · rw [ask, State.lane_onLane_self]
      rfl
    · rfl
  · rw [askEscort_elsewhere hm]

theorem releaseWaits_asIs {list : List EscortRec} : outerAsIs m (releaseWaits c list s) = outerAsIs m s :=
  releaseWaits_kept (P := fun x => outerAsIs m x = outerAsIs m s) (fun _ _ _ _ h => waitReleased_asIs.trans h) rfl

theorem waitReleased_asked (h : (s.lane l).outer.asked = some .wait) :
    ((waitReleased v sp m s).lane l).outer.asked = some .wait := by
  rw [waitReleased_lane]
  by_cases hm : l = m
  · subst hm
    by_cases hin : (s.lane l).state.inService = true
    · rw [askEscort_outer hin]
    · rw [askEscort, if_neg hin]
      exact h
  · rw [askEscort_elsewhere hm]
    exact h

theorem releaseWaits_asked {list : List EscortRec} (hmem : .wait v c l st .waiting ∈ list)
    (hin : (s.lane l).state.inService = true) :
    ((releaseWaits c list s).lane l).outer.asked = some .wait := by
  refine releaseWaits_visits (Q := fun x => (x.lane l).state.inService = true)
    (P := fun x => (x.lane l).outer.asked = some .wait) (fun x hx => ?_) (fun _ _ _ x hx => waitReleased_asked hx)
    (fun v sp m x hx => ?_) hmem hin
  · rw [waitReleased_lane, askEscort_outer hx]
  · have hstate : ((waitReleased v sp m x).lane l).state = (x.lane l).state := congrArg Prod.fst waitReleased_asIs
    rwa [hstate]

theorem settleOuter_append {as bs : List Lane} : settleOuter (as ++ bs) s = settleOuter bs (settleOuter as s) := by
  induction as generalizing s with
  | nil => rfl
  | cons x r ih => exact ih

theorem settleOuter_elsewhere {ls : List Lane} (h : l ∉ ls) :
    (settleOuter ls s).lane l = s.lane l ∧ (settleOuter ls s).line l = s.line l := by
  induction ls generalizing s with
  | nil => exact ⟨rfl, rfl⟩
  | cons x r ih =>
    obtain ⟨hx, hr⟩ := List.ne_and_not_mem_of_not_mem_cons h
    obtain ⟨hlane, hline⟩ := ih (s := settleDisplay x .outer s) hr
    exact ⟨hlane.trans ((settleDisplay_keeps (b := .lane l) (by simpa using hx)).mpr rfl),
      hline.trans ((settleDisplay_keeps (b := .line l) (by simpa using hx)).mpr rfl)⟩

/-- Each lane's outer display is settled once. -/
theorem settleOuter_all : ∃ x : State, x.lane l = s.lane l ∧ x.line l = s.line l
    ∧ (settleOuter Lane.all s).lane l = (settleDisplay l .outer x).lane l
    ∧ (settleOuter Lane.all s).line l = (settleDisplay l .outer x).line l := by
  obtain ⟨as, bs, hall⟩ := List.append_of_mem (mem_laneAll l)
  have hnodup : (as ++ l :: bs).Nodup := hall ▸ (by decide : Lane.all.Nodup)
  obtain ⟨-, hrest, hapart⟩ := List.nodup_append.mp hnodup
  have has : l ∉ as := fun h => hapart l h l (List.mem_cons_self ..) rfl
  have hbs : l ∉ bs := (List.nodup_cons.mp hrest).1
  obtain ⟨hlane, hline⟩ := settleOuter_elsewhere (s := s) has
  obtain ⟨hlane', hline'⟩ := settleOuter_elsewhere (s := settleDisplay l .outer (settleOuter as s)) hbs
  rw [hall, settleOuter_append]
  exact ⟨_, hlane, hline, hlane', hline'⟩

theorem hasDisplay_of_line (h : t.line l = s.line l) {rd : Reader} : hasDisplay t l rd = hasDisplay s l rd := by
  simp only [hasDisplay, agreedAt, h]

theorem showNow_outer {i : Indication} : ((showNow l .outer i s).lane l).outer.shown = some i :=
  congrArg Display.shown (showNow_display (rd := .outer))

theorem settleDisplay_shows {i : Indication} (hasked : (s.lane l).outer.asked = some i) (hdisplay : hasDisplay s l .outer = true)
    (hhold : (s.lane l).outer.holdDue = none) : ((settleDisplay l .outer s).lane l).outer.shown = some i
      ∧ ((settleDisplay l .outer s).line l).showOuter = some i := by
  have hasked' : ((s.lane l).display .outer).asked = some i := hasked
  have hhold' : ((s.lane l).display .outer).holdDue.isSome = false := by
    change (s.lane l).outer.holdDue.isSome = false
    rw [hhold]
    rfl
  simp only [settleDisplay, hasked', hdisplay, hhold', Bool.not_true, Bool.false_eq_true, if_false]
  exact ⟨showNow_outer, showNow_show (rd := .outer)⟩

theorem settleDisplay_waits {i : Indication} (hasked : (s.lane l).outer.asked = some i) (hdisplay : hasDisplay s l .outer = true)
    (hhold : (s.lane l).outer.holdDue ≠ none) : ((settleDisplay l .outer s).lane l).outer.waiting = some i := by
  have hasked' : ((s.lane l).display .outer).asked = some i := hasked
  have hhold' : ((s.lane l).display .outer).holdDue.isSome = true := Option.isSome_iff_ne_none.mpr hhold
  simp only [settleDisplay, hasked', hdisplay, hhold', Bool.not_true, Bool.false_eq_true, if_false, if_true]
  rw [State.lane_onLane_self]
  rfl

/-- WAIT stands at a lane's outer display, shown or waiting for its hold (R73, R85). -/
def WaitIndicated (l : Lane) (s t : State) : Prop :=
  ((s.lane l).outer.holdDue = none → (t.lane l).outer.shown = some .wait ∧ (t.line l).showOuter = some .wait)
    ∧ ((s.lane l).outer.holdDue ≠ none → (t.lane l).outer.waiting = some .wait)

theorem settleOuter_indicates (hasked : (s.lane l).outer.asked = some .wait) (hdisplay : hasDisplay s l .outer = true) :
    WaitIndicated l s (settleOuter Lane.all s) := by
  obtain ⟨x, hlane, hline, hlane', hline'⟩ := settleOuter_all (s := s) (l := l)
  have hasked' : (x.lane l).outer.asked = some .wait := by rw [hlane]; exact hasked
  have hdisplay' : hasDisplay x l .outer = true := (hasDisplay_of_line hline).trans hdisplay
  unfold WaitIndicated
  rw [hlane', hline', ← hlane]
  exact ⟨settleDisplay_shows hasked' hdisplay', settleDisplay_waits hasked' hdisplay'⟩

/-! ## A sponsor's passage (R84, R85) -/

/-- The passages that lie while the first one of a lane is taken. -/
def sponsorsLeft (left : List HandedPassage) (s : State) : State := s.onMail (fun m => { m with sponsors := left })

theorem exec_sponsorPassage {x : HandedPassage} {before after : List HandedPassage} (hrun : s.resetHeld = false)
    (hm : s.mail.sponsors = before ++ x :: after) (hbefore : ∀ y ∈ before, y.lane ≠ x.lane) :
    exec (.sponsorPassage x.lane) s = .next (sponsorPassage x (sponsorsLeft (before ++ after) s)) := by
  refine (running_of_not_resetHeld hrun _).trans ?_
  rw [hm, takeFirst_split (p := fun y : HandedPassage => y.lane == x.lane) (beq_self_eq_true x.lane) fun y hy =>
    beq_eq_false_iff_ne.mpr (hbefore y hy)] <;> rfl

/-- The sponsor's credit dealt with and the waiting visitors released (R84, R85). -/
def waitsTold (x : HandedPassage) (s : State) : State :=
  releaseWaits x.cred (sponsorCredit x.cred x.lane s).escort.list (sponsorCredit x.cred x.lane s)

theorem sponsorPassage_nothing {x : HandedPassage} (h : x.dir = .exit ∨ x.gone = true ∨ x.refs = 0) :
    sponsorPassage x s = s := by
  refine if_neg fun ⟨hdir, hgone, hrefs⟩ => ?_
  rcases h with h | h | h
  · simp [h] at hdir
  · simp [h] at hgone
  · omega

theorem sponsorPassage_tells {x : HandedPassage} (hdir : x.dir = .entry) (hgone : x.gone = false) (hrefs : 0 < x.refs) :
    sponsorPassage x s = settleOuter Lane.all (waitsTold x s) := if_pos ⟨hdir, hgone, hrefs⟩

theorem settleOuter_escort {ls : List Lane} : (settleOuter ls s).escort = s.escort :=
  (settleOuter_keeps (b := .escort) (by simp [everyLane])).mpr rfl

theorem settleOuter_records {ls : List Lane} : (settleOuter ls s).mail.records = s.mail.records :=
  (settleOuter_keeps (b := .records) (by simp [everyLane])).mpr rfl

theorem settleOuter_releases {ls : List Lane} : (settleOuter ls s).mail.releases = s.mail.releases :=
  (settleOuter_keeps (b := .releases) (by simp [everyLane])).mpr rfl

theorem sponsorPassage_sponsors {x : HandedPassage} : (sponsorPassage x s).mail.sponsors = s.mail.sponsors :=
  (sponsorPassage_keeps (b := .sponsors) (by simp [everyLane])).mpr rfl

theorem hasCredit_of_escort (h : t.escort = s.escort) : t.hasCredit c = s.hasCredit c := by
  simp only [State.hasCredit, h]

theorem wait_mem_sponsorCredit {m : Lane} (h : .wait v sp l st ph ∈ s.escort.list) :
    .wait v sp l st ph ∈ (sponsorCredit c m s).escort.list := by
  have hdropped : .wait v sp l st ph ∈ (dropCredit c s).escort.list := List.mem_filter.mpr ⟨h, rfl⟩
  unfold sponsorCredit
  repeat' split
  · exact List.mem_append_left _ hdropped
  · exact h
  · exact List.mem_append_left _ h
  · exact h

theorem sponsorCredit_line : (sponsorCredit c l s).line m = s.line m :=
  (sponsorCredit_keeps (b := .line m) (by simp)).mpr rfl

theorem sponsorCredit_stamp : (sponsorCredit c l s).stamp = s.stamp :=
  stamp_of_clock ((sponsorCredit_keeps (b := .clock) (by simp)).mpr rfl)

theorem waitsTold_records {x : HandedPassage} : (waitsTold x s).mail.records
    = (sponsorCredit x.cred x.lane s).mail.records ++ s.escort.list.filterMap (releaseRecord s.stamp x.cred) := by
  rw [waitsTold, records_releaseWaits, sponsorCredit_stamp, releases_sponsorCredit]

/-- WAIT stands at the lane of each visitor released (R73, R85, R94). -/
theorem waitsTold_indicates {x : HandedPassage} (hmem : .wait v x.cred l st .waiting ∈ s.escort.list)
    (hin : (s.lane l).state.inService = true) (hdisplay : hasDisplay s l .outer = true) :
    WaitIndicated l s (settleOuter Lane.all (waitsTold x s)) := by
  have hasis : outerAsIs l (waitsTold x s) = outerAsIs l s := by
    rw [waitsTold, releaseWaits_asIs, outerAsIs, sponsorCredit_lane, sponsorCredit_line]
    rfl
  obtain ⟨-, -, hhold, -, hline⟩ : _ ∧ _ ∧ (((waitsTold x s).lane l).outer.holdDue = (s.lane l).outer.holdDue) ∧ _
    ∧ (waitsTold x s).line l = s.line l := by simpa only [outerAsIs, Prod.mk.injEq] using hasis
  have hasked : ((waitsTold x s).lane l).outer.asked = some .wait :=
    releaseWaits_asked (wait_mem_sponsorCredit hmem) (by rw [sponsorCredit_lane]; exact hin)
  have hindicated := settleOuter_indicates hasked ((hasDisplay_of_line hline).trans hdisplay)
  rwa [WaitIndicated, hhold] at hindicated

/-! ## A lane told of a release (R72, R85) -/

/-- The notices that lie while the first one of a lane is taken. -/
def releasesLeft (left : List (Lane × Cred)) (s : State) : State := s.onMail (fun m => { m with releases := left })

theorem exec_laneReleaseNotice {before after : List (Lane × Cred)} (hrun : s.resetHeld = false)
    (hm : s.mail.releases = before ++ (l, v) :: after) (hbefore : ∀ y ∈ before, y.1 ≠ l) :
    exec (.laneReleaseNotice l) s = .next (settleLane l (releasesLeft (before ++ after) s)) := by
  refine (running_of_not_resetHeld hrun _).trans ?_
  rw [hm, takeFirst_split (p := fun y : Lane × Cred => y.1 == l) (beq_self_eq_true l) fun y hy =>
    beq_eq_false_iff_ne.mpr (hbefore y hy)] <;> rfl

theorem settleLane_releases : (settleLane l s).mail.releases = s.mail.releases :=
  (settleLane_keeps (b := .releases) (by simp)).mpr rfl

theorem offerPlace_second_mem {x : SecondOp} (h : x ∈ s.arbiter.second) : x ∈ (offerPlace l s).arbiter.second := by
  unfold offerPlace
  repeat' split
  all_goals first
    | exact h
    | exact List.mem_append_left _ h

/-- A pending WAIT takes the free place of a lane without a reservation (R72, R86). -/
theorem settleLane_claims (hfound : s.escort.list.find? (pendingWaitAt l) = some (.wait v sp m st ph))
    (hin : (s.lane l).state.inService = true) (hreservation : (s.lane l).reservation = none)
    (hmode : modeEnables s l .entry = true) (hfree : 0 < freePlaces s l) :
    .release v l ∈ (settleLane l s).arbiter.second := by
  have hoffered : offerPlace l s = claimSecond (.release v l) (onEscort (setPhase v .releasing) s) := by
    unfold offerPlace
    rw [if_neg (by simp [hin]; omega)]
    simp only [hreservation, hmode, hfound, Bool.not_true, Bool.false_eq_true, if_false]
  rw [settleLane, endEvent_arbiter, offerPlaces, hoffered]
  exact offerPlace_second_mem (List.mem_append_right _ (List.mem_singleton_self _))

/-! ## The list cleared (R91, R92) -/

theorem exec_escortLockdown (hrun : s.resetHeld = false) (h : 0 < s.mail.escortLockdowns) : exec .escortLockdown s
    = .next (endEvents Lane.all (clearList true
        (s.onMail (fun m => { m with escortLockdowns := m.escortLockdowns - 1 })))) := by
  refine (running_of_not_resetHeld hrun _).trans ?_
  rw [if_neg (by omega)]

theorem exec_escortEgressClear (hrun : s.resetHeld = false) (h : 0 < s.mail.escortClears) : exec .escortEgressClear s
    = .next (clearList false (s.onMail (fun m => { m with escortClears := m.escortClears - 1 }))) := by
  refine (running_of_not_resetHeld hrun _).trans ?_
  rw [if_neg (by omega)]

/-- The claim releases of the WAITs of a list (R91, R92). -/
def waitReleases (list : List EscortRec) : List FirstOp :=
  list.filterMap (fun r => match r with | .wait v _ _ _ _ => some (.claimRelease v) | _ => none)

theorem recordEnds_first {b : Bool} {list : List EscortRec} :
    (recordEnds b list s).arbiter.first = s.arbiter.first ++ waitReleases list := by
  induction list generalizing s with
  | nil => exact (List.append_nil _).symm
  | cons r rest ih =>
    cases r with
    | credit x m st => exact ih
    | wait v sp m st ph =>
      rw [recordEnds, ih]
      have hfirst (x : State) (hx : x.arbiter.first = s.arbiter.first ++ [.claimRelease v]) :
          x.arbiter.first ++ waitReleases rest = s.arbiter.first ++ waitReleases (.wait v sp m st ph :: rest) := by
        rw [hx, List.append_assoc]
        rfl
      refine hfirst _ ?_
      split
      · rw [askEscort_arbiter]
        rfl
      · rfl

theorem recordEnds_lanes {list : List EscortRec} : (recordEnds false list s).lanes = s.lanes := by
  induction list generalizing s with
  | nil => rfl
  | cons r rest ih =>
    cases r with
    | credit x m st => exact ih
    | wait v sp m st ph => exact ih

theorem clearList_first {b : Bool} : (clearList b s).arbiter.first = s.arbiter.first ++ waitReleases s.escort.list :=
  recordEnds_first

theorem clearList_escort {b : Bool} : (clearList b s).escort = { s.escort with list := [] } :=
  (recordEnds_keeps (b := .escort) (s := onEscort (fun _ => []) s) (by simp)).mpr rfl

theorem clearList_lanes : (clearList false s).lanes = s.lanes := recordEnds_lanes

theorem clearList_escortLockdowns {b : Bool} : (clearList b s).mail.escortLockdowns = s.mail.escortLockdowns :=
  (clearList_keeps (b := .escortLockdowns) (by simp)).mpr rfl

theorem clearList_escortClears {b : Bool} : (clearList b s).mail.escortClears = s.mail.escortClears :=
  (clearList_keeps (b := .escortClears) (by simp)).mpr rfl

theorem endEvents_arbiter {ls : List Lane} : (endEvents ls s).arbiter = s.arbiter :=
  (endEvents_keeps (b := .arbiter) (by simp [everyLane])).mpr rfl

theorem endEvents_escort {ls : List Lane} : (endEvents ls s).escort = s.escort :=
  (endEvents_keeps (b := .escort) (by simp [everyLane])).mpr rfl

theorem endEvents_escortLockdowns {ls : List Lane} : (endEvents ls s).mail.escortLockdowns = s.mail.escortLockdowns :=
  (endEvents_keeps (b := .escortLockdowns) (by simp [everyLane])).mpr rfl

/-- Settles O46: the expiries by whether the interval has passed, a sponsor's passage by its credit and then its waits, the
notice by the place it offers, and the two clearings of the list. -/
theorem escortEvents : Obligations.EscortEvents := by
  intro s hrun
  refine ⟨fun c v sp l st ph hwait => ⟨fun hearly => ?_, fun hpassed hph => ⟨_, exec_escortWaitExpiry hrun hwait, ?_⟩⟩,
    fun c hnone => ?_, fun c x l st hfound => ⟨fun hearly => ?_, fun hpassed => ⟨_, exec_creditExpiry hrun hfound, ?_⟩⟩,
    fun x before after hm hbefore => ⟨_, exec_sponsorPassage hrun hm hbefore, sponsorPassage_sponsors, fun hno => ?_,
    fun hdir hgone hrefs => ?_⟩, fun l v before after hm hbefore => ⟨_, exec_laneReleaseNotice hrun hm hbefore,
    settleLane_releases, settleLane_table, (LaneUnit.fields_of_frame settleLane_frame).2.1,
    fun x sp m st ph hfound hin hreservation hmode hfree =>
    settleLane_claims (s := releasesLeft (before ++ after) s) hfound hin hreservation hmode hfree⟩,
    fun hsome => ⟨_, exec_escortLockdown hrun hsome, ?_, ?_, ?_⟩, fun hsome => ⟨_, exec_escortEgressClear hrun hsome,
    clearList_escort, clearList_lanes, clearList_escortClears, clearList_first⟩⟩
  · rw [exec_escortWaitExpiry hrun hwait, if_neg]
    rw [wait_expired_iff]
    rintro ⟨hph, hpassed⟩
    exact hearly.elim (fun h => absurd h (by omega)) hph
  · obtain rfl := visitor_of_waitOf hwait
    rw [if_pos (wait_expired_iff.mpr ⟨hph, hpassed⟩), timeoutWait_eq hwait]
    exact ⟨waitOf_afterWait waitOf_expireWait, afterWait_first.trans expireWait_first,
      afterWait_records.trans expireWait_records⟩
  · refine (running_of_not_resetHeld hrun _).trans ?_
    simp only [hnone]
  · rw [exec_creditExpiry hrun hfound, if_neg]
    rw [intervalPassed_iff]
    omega
  · obtain rfl : x = c := by simpa [isCreditOf] using List.find?_some hfound
    rw [if_pos (intervalPassed_iff.mpr hpassed)]
    exact ⟨hasCredit_dropCredit (s := s), rfl⟩
  · rw [sponsorPassage_nothing hno]
    exact ⟨rfl, rfl, rfl⟩
  · rw [sponsorPassage_tells hdir hgone hrefs, settleOuter_records, settleOuter_releases, hasCredit_of_escort settleOuter_escort,
      settleOuter_escort, waitsTold, hasCredit_releaseWaits]
    refine ⟨hasCredit_sponsorCredit, fun hcredit => last_releaseWaits (last_sponsorCredit hcredit), fun c l st hne =>
      credit_mem_releaseWaits.trans (credit_mem_sponsorCredit hne), ?_, fun v l st hmem =>
      ⟨releaseWaits_pending (wait_mem_sponsorCredit hmem) (wait_mem_sponsorCredit hmem),
        releaseWaits_told (wait_mem_sponsorCredit hmem), waitsTold_indicates (s := sponsorsLeft (before ++ after) s) hmem⟩⟩
    refine waitsTold_records.trans (congr (congrArg HAppend.hAppend records_sponsorCredit) (congrArg (List.filterMap · _) (funext fun r => ?_)))
    cases r with
    | credit c m st => rfl
    | wait v sp m st ph => cases ph <;> rfl
  · rw [endEvents_escort, clearList_escort]
    rfl
  · rw [endEvents_escortLockdowns, clearList_escortLockdowns]
    rfl
  · rw [endEvents_arbiter, clearList_first]
    rfl

end Sys2Proof.Machine
end

section
/-!
PROOFS. SET_ESCORT and ESCORT_STATUS (R95, R96): which records a new interval ends and which stay.
-/
namespace Sys2Proof.Machine

variable {s t : State} {l m : Lane} {v c sp : Cred} {ph : WaitPhase} {st : Nat} {p : Port}

/-! ## The records whose interval has passed -/

/-- Two records of one visitor's WAIT, or of one sponsor's credit. -/
def EscortRec.sameHolder : EscortRec → EscortRec → Bool
  | .wait v _ _ _ _ => isWaitOf v
  | .credit c _ _ => isCreditOf c

/-- An expired record ends (R83). -/
def expireRecord (r : EscortRec) (s : State) : State :=
  match r with
  | .wait v sp l _ _ => expireWait v sp l s
  | .credit c l _ => expireCredit c l s

theorem expireAll_cons {r : EscortRec} {xs : List EscortRec} :
    expireAll (r :: xs) s = expireAll xs (if r.expired s then expireRecord r s else s) := by
  cases r <;> rfl

theorem expireWait_escort : (expireWait v sp l s).escort = (dropWait v s).escort :=
  (show Block.escort.same (dropWait v s) (expireWait v sp l s) by simp [expireWait])

theorem expireRecord_escort {r : EscortRec} : (expireRecord r s).escort
    = { s.escort with list := s.escort.list.filter (fun x => !r.sameHolder x) } := by
  cases r with
  | wait v sp l st ph => exact expireWait_escort
  | credit c l st => rfl

theorem expireRecord_time {r : EscortRec} : (expireRecord r s).time = s.time := by
  cases r with
  | wait v sp l st ph => exact (expireWait_keeps (b := .time) (by simp)).mpr rfl
  | credit c l st => rfl

theorem expired_of_same {r : EscortRec} (htime : t.time = s.time) (hinterval : t.escort.interval = s.escort.interval) :
    r.expired t = r.expired s := by
  cases r <;> simp only [EscortRec.expired, intervalPassed, htime, hinterval]

theorem expired_expireRecord {r x : EscortRec} : x.expired (expireRecord r s) = x.expired s :=
  expired_of_same expireRecord_time (by rw [expireRecord_escort])

/-- What stays when each expired record of a list has ended: all but the records of the expired ones' holders (R95). -/
theorem expireAll_escort {xs : List EscortRec} : (expireAll xs s).escort = { s.escort with
    list := s.escort.list.filter (fun r => !xs.any (fun q => q.expired s && q.sameHolder r)) } := by
  induction xs generalizing s with
  | nil =>
    have hall : s.escort.list.filter (fun r => !([] : List EscortRec).any (fun q => q.expired s && q.sameHolder r))
        = s.escort.list := List.filter_eq_self.mpr fun _ _ => rfl
    rw [hall]
    rfl
  | cons r rest ih =>
    rw [expireAll_cons, ih]
    split
    · rename_i h
      simp only [expired_expireRecord, expireRecord_escort, List.filter_filter, List.any_cons, h, Bool.true_and, Bool.not_or,
        Bool.and_comm]
    · rename_i h
      simp [h]

theorem mem_expireAll {r : EscortRec} : r ∈ (expireAll s.escort.list s).escort.list ↔ r ∈ s.escort.list
    ∧ ∀ q ∈ s.escort.list, q.expired s = true → q.sameHolder r = false := by
  rw [expireAll_escort]
  simp [List.mem_filter]

theorem sameHolder_self {r : EscortRec} : r.sameHolder r = true := by
  cases r <;> simp [EscortRec.sameHolder, isWaitOf, isCreditOf]

/-- What the end of each expired record keeps, the end of all keeps. -/
theorem expireAll_kept {P : State → Prop} (hstep : ∀ r x, P x → P (expireRecord r x)) {xs : List EscortRec} (h : P s) :
    P (expireAll xs s) := by
  induction xs generalizing s with
  | nil => exact h
  | cons r rest ih =>
    rw [expireAll_cons]
    refine ih ?_
    split
    · exact hstep r s h
    · exact h

/-- The lobby time and what tells whether a record has expired. -/
def escortClock (s : State) : Stamp × Nat × Nat := (s.stamp, s.time, s.escort.interval)

theorem expireRecord_clock {r : EscortRec} : escortClock (expireRecord r s) = escortClock s := by
  have hstamp : (expireRecord r s).stamp = s.stamp := by
    cases r with
    | wait v sp l st ph => exact stamp_of_clock ((expireWait_keeps (b := .clock) (by simp)).mpr rfl)
    | credit c l st => rfl
  rw [escortClock, hstamp, expireRecord_time, expireRecord_escort]
  rfl

/-- An expired record has its effect, which the ends of the others keep. -/
theorem expireAll_visits {P : State → Prop} {r : EscortRec} (hmade : ∀ x, escortClock x = escortClock s → P (expireRecord r x))
    (hstep : ∀ q x, P x → P (expireRecord q x)) {xs : List EscortRec} (hmem : r ∈ xs) (hexpired : r.expired s = true) :
    P (expireAll xs s) := by
  suffices h : ∀ u, escortClock u = escortClock s → P (expireAll xs u) from h s rfl
  intro u hu
  have hexpired' : r.expired u = true := by
    obtain ⟨-, htime, hinterval⟩ : _ ∧ u.time = s.time ∧ u.escort.interval = s.escort.interval := by
      simpa only [escortClock, Prod.mk.injEq] using hu
    rw [expired_of_same htime hinterval, hexpired]
  induction xs generalizing u with
  | nil => simp at hmem
  | cons q rest ih =>
    rw [expireAll_cons]
    rcases List.mem_cons.mp hmem with rfl | hrest
    · rw [if_pos hexpired']
      exact expireAll_kept hstep (hmade u hu)
    · split
      · exact ih hrest _ (expireRecord_clock.trans hu) (expired_expireRecord.trans hexpired')
      · exact ih hrest u hu hexpired'

theorem expireRecord_firstKept (r : EscortRec) (s : State) : FirstKept s (expireRecord r s) := by
  cases r with
  | wait v sp l st ph =>
    intro x hx
    change x ∈ (expireWait v sp l s).arbiter.first
    rw [expireWait_first]
    exact List.mem_append_left _ hx
  | credit c l st => exact .refl s

theorem expireRecord_recordsKept (r : EscortRec) (s : State) : RecordsKept s (expireRecord r s) := by
  cases r with
  | wait v sp l st ph => exact expireWait_recordsKept v sp l s
  | credit c l st => exact escortRecord_recordsKept .creditExpired (some l) (some c) .none (dropCredit c s)

theorem expireAll_claims {xs : List EscortRec} (hmem : .wait v sp l st ph ∈ xs)
    (hexpired : (EscortRec.wait v sp l st ph).expired s = true) : .claimRelease v ∈ (expireAll xs s).arbiter.first := by
  refine expireAll_visits (P := fun x => .claimRelease v ∈ x.arbiter.first) (fun x _ => ?_)
    (fun q x hx => expireRecord_firstKept q x _ hx) hmem hexpired
  change FirstOp.claimRelease v ∈ (expireWait v sp l x).arbiter.first
  rw [expireWait_first]
  exact List.mem_append_right _ (List.mem_singleton_self _)

theorem expireAll_record {xs : List EscortRec} (hmem : .wait v sp l st ph ∈ xs)
    (hexpired : (EscortRec.wait v sp l st ph).expired s = true) : (Source.escort, ({
      time := s.stamp, code := .escort .escortTimeout, lane := some l, cred := some v, detail := .cred sp } : Record))
        ∈ (expireAll xs s).mail.records := by
  refine expireAll_visits (P := fun x => (Source.escort, ({
    time := s.stamp, code := .escort .escortTimeout, lane := some l, cred := some v, detail := .cred sp } : Record))
      ∈ x.mail.records) (fun x hx => ?_) (fun q x hx => expireRecord_recordsKept q x _ hx) hmem hexpired
  have hstamp : x.stamp = s.stamp := congrArg Prod.fst hx
  change _ ∈ (expireWait v sp l x).mail.records
  rw [expireWait_records, hstamp]
  exact List.mem_append_right _ (List.mem_singleton_self _)

/-! ## The lanes settled after the waits ended (R72, R83) -/

/-- What the release of each pending WAIT keeps of the escort unit, the offer of a place keeps. -/
theorem offerPlace_escort_kept {P : EscortUnit → Prop} (hstep : ∀ v sp m st (e : EscortUnit),
      .wait v sp m st .releasePending ∈ e.list → P e → P { e with list := setPhase v .releasing e.list })
    (h : P s.escort) : P (offerPlace l s).escort := by
  unfold offerPlace
  split
  · exact h
  · split
    · exact h
    · split
      · exact h
      · split
        · rename_i v sp m st ph hfound
          have hpending := List.find?_some hfound
          have hmem := List.mem_of_find?_eq_some hfound
          cases ph with
          | waiting => simp [pendingWaitAt] at hpending
          | releasing => simp [pendingWaitAt] at hpending
          | releasePending => exact hstep v sp m st s.escort hmem h
        · exact h

theorem settleLane_escort : (settleLane l s).escort = (offerPlaces l s).escort :=
  (endEvent_keeps (b := .escort) (by simp)).mpr rfl

theorem afterWait_escort_kept {P : EscortUnit → Prop} (hstep : ∀ v sp m st (e : EscortUnit),
      .wait v sp m st .releasePending ∈ e.list → P e → P { e with list := setPhase v .releasing e.list })
    (h : P s.escort) : P (afterWait l ph s).escort := by
  unfold afterWait
  split
  · rw [settleLane_escort]
    exact offerPlace_escort_kept hstep (offerPlace_escort_kept hstep h)
  · have hsame : (endEvent l s).escort = s.escort := (endEvent_keeps (b := .escort) (by simp)).mpr rfl
    rw [hsame]
    exact h

theorem settleWaitLanes_escort_kept {P : EscortUnit → Prop} (hstep : ∀ v sp m st (e : EscortUnit),
      .wait v sp m st .releasePending ∈ e.list → P e → P { e with list := setPhase v .releasing e.list })
    {xs : List EscortRec} (h : P s.escort) : P (settleWaitLanes xs s).escort := by
  induction xs generalizing s with
  | nil => exact h
  | cons r rest ih =>
    cases r with
    | credit c m st => exact ih h
    | wait v sp m st ph => exact ih (afterWait_escort_kept hstep h)

theorem settleWaitLanes_first {xs : List EscortRec} : (settleWaitLanes xs s).arbiter.first = s.arbiter.first := by
  induction xs generalizing s with
  | nil => rfl
  | cons r rest ih =>
    cases r with
    | credit c m st => exact ih
    | wait v sp m st ph => exact ih.trans afterWait_first

theorem settleWaitLanes_records {xs : List EscortRec} : (settleWaitLanes xs s).mail.records = s.mail.records :=
  (settleWaitLanes_keeps (b := .records) (by simp [everyLane])).mpr rfl

theorem settleWaitLanes_interval {xs : List EscortRec} : (settleWaitLanes xs s).escort.interval = s.escort.interval :=
  settleWaitLanes_escort_kept (P := fun e => e.interval = s.escort.interval) (fun _ _ _ _ _ _ h => h) rfl

theorem credit_mem_settleWaitLanes {xs : List EscortRec} :
    .credit c l st ∈ (settleWaitLanes xs s).escort.list ↔ .credit c l st ∈ s.escort.list :=
  settleWaitLanes_escort_kept (P := fun e => .credit c l st ∈ e.list ↔ .credit c l st ∈ s.escort.list)
    (fun _ _ _ _ _ _ h => credit_mem_setPhase.trans h) Iff.rfl

theorem waitOf_settleWaitLanes {xs : List EscortRec} (h : s.waitOf v = none) : (settleWaitLanes xs s).waitOf v = none :=
  waitOf_eq_none.mpr (settleWaitLanes_escort_kept (P := fun e => ∀ r ∈ e.list, isWaitOf v r = false)
    (fun _ _ _ _ _ _ h => setPhase_isWaitOf h) (waitOf_eq_none.mp h))

/-- A WAIT of a list whose phases were set stands there already, in the phase set or in its own. -/
theorem wait_of_mem_setPhase {x : Cred} {k : WaitPhase} {list : List EscortRec}
    (h : .wait v sp l st ph ∈ setPhase x k list) : ∃ q, .wait v sp l st q ∈ list ∧ (v ≠ x ∧ ph = q ∨ v = x ∧ ph = k) := by
  obtain ⟨r, hr, hset⟩ := List.mem_map.mp h
  cases r with
  | credit c m st => cases hset
  | wait y sp' m st' q =>
    dsimp only at hset
    split at hset
    · rename_i hy
      obtain ⟨rfl, rfl, rfl, rfl, rfl⟩ := EscortRec.wait.inj hset
      exact ⟨q, hr, .inr ⟨by simpa using hy, rfl⟩⟩
    · rename_i hy
      obtain ⟨rfl, rfl, rfl, rfl, rfl⟩ := EscortRec.wait.inj hset
      exact ⟨_, hr, .inl ⟨by simpa using hy, rfl⟩⟩

theorem settleWaitLanes_wait {xs : List EscortRec} (h : .wait v sp l st ph ∈ (settleWaitLanes xs s).escort.list) :
    ∃ q, .wait v sp l st q ∈ s.escort.list ∧ (ph = q ∨ ph = .releasing) := by
  refine settleWaitLanes_escort_kept (s := s) (xs := xs) (P := fun e => ∀ k, .wait v sp l st k ∈ e.list →
    ∃ q, .wait v sp l st q ∈ s.escort.list ∧ (k = q ∨ k = .releasing)) (fun y _ _ _ e _ he k hk => ?_)
    (fun k hk => ⟨k, hk, .inl rfl⟩) ph h
  obtain ⟨q, hq, hphase⟩ := wait_of_mem_setPhase hk
  rcases hphase with ⟨-, rfl⟩ | ⟨-, rfl⟩
  · exact he _ hq
  · obtain ⟨q', hq', -⟩ := he _ hq
    exact ⟨q', hq', .inr rfl⟩

/-- The visitor's only WAIT stands, in its phase or taken from RELEASE_PENDING to RELEASING (R86). -/
def OnlyWait (v sp : Cred) (l : Lane) (st : Nat) (ph : WaitPhase) (e : EscortUnit) : Prop :=
  ∃ k, (k = ph ∨ ph = .releasePending ∧ k = .releasing) ∧ .wait v sp l st k ∈ e.list
    ∧ ∀ sp' m t q, .wait v sp' m t q ∈ e.list → sp' = sp ∧ m = l ∧ t = st ∧ q = k

theorem OnlyWait.released {x y : Cred} {e : EscortUnit} {n : Nat} (hpending : .wait x y m n .releasePending ∈ e.list)
    (h : OnlyWait v sp l st ph e) : OnlyWait v sp l st ph { e with list := setPhase x .releasing e.list } := by
  obtain ⟨k, hk, hmem, honly⟩ := h
  by_cases hx : x = v
  · subst hx
    obtain ⟨-, -, -, hphase⟩ := honly _ _ _ _ hpending
    have hph : ph = .releasePending := by
      rcases hk with hk | ⟨hph, -⟩
      · rw [← hk, ← hphase]
      · exact hph
    refine ⟨.releasing, .inr ⟨hph, rfl⟩, List.mem_map.mpr ⟨_, hmem, by simp⟩, fun sp' m' t q hq => ?_⟩
    obtain ⟨q', hq', hset⟩ := wait_of_mem_setPhase hq
    obtain ⟨hsp, hm, ht, -⟩ := honly _ _ _ _ hq'
    exact ⟨hsp, hm, ht, hset.elim (fun h => absurd rfl h.1) fun h => h.2⟩
  · refine ⟨k, hk, List.mem_map.mpr ⟨_, hmem, by simp [Ne.symm hx]⟩, fun sp' m' t q hq => ?_⟩
    obtain ⟨q', hq', hset⟩ := wait_of_mem_setPhase hq
    rcases hset with ⟨-, rfl⟩ | ⟨hv, -⟩
    · exact honly _ _ _ _ hq'
    · exact absurd hv.symm hx

theorem settleWaitLanes_only {xs : List EscortRec} (h : OnlyWait v sp l st ph s.escort) :
    OnlyWait v sp l st ph (settleWaitLanes xs s).escort :=
  settleWaitLanes_escort_kept (fun _ _ _ _ _ hpending h => h.released hpending) h

/-! ## The requests -/

/-- The interval in force (R95). -/
def intervalSet (v : Nat) (s : State) : State := { s with escort := { s.escort with interval := v } }

/-- What a new interval makes of the list, before its lanes offer their places (R95). -/
def intervalTaken (v : Nat) (s : State) : State := expireAll s.escort.list (intervalSet v s)

/-- The list and the lanes after a new interval (R95). -/
def intervalSettled (v : Nat) (s : State) : State :=
  settleWaitLanes (s.escort.list.filter (EscortRec.expired (intervalSet v s))) (intervalTaken v s)

theorem exec_setEscort {n : Nat} (h : Asked p (.setEscort n) s) :
    exec (.setEscort p) s = .next (setEscort p n (taken p s)) := by
  obtain ⟨hrun, hreq⟩ := h
  refine (running_of_not_resetHeld hrun _).trans ?_
  simp only [hreq]
  rfl

theorem setEscort_taken {n : Nat} (hlow : 10 ≤ n) (hhigh : n ≤ 600) :
    setEscort p n s = answer p .ok [] (intervalSettled n s) := if_neg (by omega)

theorem exec_escortStatus {b : Byte} (h : Asked p (.escortStatus b) s) : exec (.escortStatus p) s
    = .next (if b.toNat > 15 then answer p .badField [] (taken p s)
        else answer p .ok (escortBody (taken p s) b.toNat) (taken p s)) := by
  obtain ⟨hrun, hreq⟩ := h
  refine (running_of_not_resetHeld hrun _).trans ?_
  simp only [hreq]
  rfl

section Settled
variable {n : Nat}

theorem mem_intervalTaken {r : EscortRec} : r ∈ (intervalTaken n s).escort.list ↔ r ∈ s.escort.list
    ∧ ∀ q ∈ s.escort.list, q.expired (intervalSet n s) = true → q.sameHolder r = false :=
  mem_expireAll (s := intervalSet n s)

theorem not_expired_of_mem {r : EscortRec} (h : r ∈ (intervalTaken n s).escort.list) :
    r.expired (intervalSet n s) = false := by
  obtain ⟨hmem, hkept⟩ := mem_intervalTaken.mp h
  cases hr : r.expired (intervalSet n s) with
  | false => rfl
  | true => simpa [sameHolder_self] using hkept r hmem hr

theorem wait_expired_set : (EscortRec.wait v sp l st ph).expired (intervalSet n s) = true
    ↔ ph ≠ .releasing ∧ st + n * 1000 ≤ s.time := wait_expired_iff

theorem credit_expired_set : (EscortRec.credit c l st).expired (intervalSet n s) = true ↔ st + n * 1000 ≤ s.time :=
  credit_expired_iff

theorem intervalSettled_interval : (intervalSettled n s).escort.interval = n := by
  rw [intervalSettled, settleWaitLanes_interval, intervalTaken, expireAll_escort]
  rfl

/-- The credits younger than the interval stay. -/
theorem intervalSettled_credit (hyoung : s.time < st + n * 1000) (hmem : .credit c l st ∈ s.escort.list)
    (honly : ∀ m t, .credit c m t ∈ s.escort.list → t = st) : .credit c l st ∈ (intervalSettled n s).escort.list := by
  refine credit_mem_settleWaitLanes.mpr (mem_intervalTaken.mpr ⟨hmem, fun q hq hexpired => ?_⟩)
  cases q with
  | wait x sp m t k => rfl
  | credit x m t =>
    refine beq_eq_false_iff_ne.mpr fun hc => ?_
    subst hc
    have ht := honly m t hq
    have hold := credit_expired_set.mp hexpired
    omega

theorem intervalSettled_credit_young (h : .credit c l st ∈ (intervalSettled n s).escort.list) : s.time < st + n * 1000 := by
  have hkept := not_expired_of_mem (credit_mem_settleWaitLanes.mp h)
  exact Nat.lt_of_not_le fun hold => Bool.noConfusion (hkept.symm.trans (credit_expired_set.mpr hold))

theorem intervalSettled_wait_young (h : .wait v sp l st ph ∈ (intervalSettled n s).escort.list) :
    ph = .releasing ∨ s.time < st + n * 1000 := by
  obtain ⟨q, hq, hphase⟩ := settleWaitLanes_wait h
  rcases hphase with rfl | hphase
  · by_cases hp : ph = .releasing
    · exact .inl hp
    · exact .inr (Nat.lt_of_not_le fun hold =>
        Bool.noConfusion ((not_expired_of_mem hq).symm.trans (wait_expired_set.mpr ⟨hp, hold⟩)))
  · exact .inl hphase

/-- A WAIT older than the interval and not in RELEASING ends (R83, R95). -/
theorem intervalSettled_ends (hmem : .wait v sp l st ph ∈ s.escort.list) (hph : ph ≠ .releasing)
    (hold : st + n * 1000 ≤ s.time) : .claimRelease v ∈ (intervalSettled n s).arbiter.first
      ∧ (intervalSettled n s).waitOf v = none
      ∧ (Source.escort, ({ time := s.stamp, code := .escort .escortTimeout, lane := some l, cred := some v
                           detail := .cred sp } : Record)) ∈ (intervalSettled n s).mail.records := by
  have hexpired : (EscortRec.wait v sp l st ph).expired (intervalSet n s) = true := wait_expired_set.mpr ⟨hph, hold⟩
  rw [intervalSettled, settleWaitLanes_first, settleWaitLanes_records]
  refine ⟨expireAll_claims hmem hexpired, waitOf_settleWaitLanes (waitOf_eq_none.mpr fun r hr => ?_),
    expireAll_record (s := intervalSet n s) hmem hexpired⟩
  exact (mem_intervalTaken.mp hr).2 _ hmem hexpired

/-- A WAIT younger than the interval, or in RELEASING, stays (R83, R95). -/
theorem intervalSettled_stays (hmem : .wait v sp l st ph ∈ s.escort.list)
    (hstays : ph = .releasing ∨ s.time < st + n * 1000)
    (honly : ∀ sp' m t k, .wait v sp' m t k ∈ s.escort.list → sp' = sp ∧ m = l ∧ t = st ∧ k = ph) :
    ∃ k, .wait v sp l st k ∈ (intervalSettled n s).escort.list ∧ (k = ph ∨ ph = .releasePending ∧ k = .releasing) := by
  have hkept : .wait v sp l st ph ∈ (intervalTaken n s).escort.list := by
    refine mem_intervalTaken.mpr ⟨hmem, fun q hq hexpired => ?_⟩
    cases q with
    | credit c m t => rfl
    | wait x sp' m t k =>
      refine beq_eq_false_iff_ne.mpr fun hx => ?_
      subst hx
      obtain ⟨-, -, rfl, rfl⟩ := honly _ _ _ _ hq
      obtain ⟨hphase, hold⟩ := wait_expired_set.mp hexpired
      exact hstays.elim hphase fun hyoung => by omega
  have honly' : OnlyWait v sp l st ph (intervalTaken n s).escort :=
    ⟨ph, .inl rfl, hkept, fun sp' m t q hq => honly _ _ _ _ (mem_intervalTaken.mp hq).1⟩
  obtain ⟨k, hk, hthere, -⟩ := settleWaitLanes_only honly'
  exact ⟨k, hthere, hk⟩

end Settled

/-- Settles O45: the interval by its range, then each record by its age; the status by its position. -/
theorem escortRequests : Obligations.EscortRequests := by
  intro p s
  refine ⟨fun v h => ⟨fun hbad => ?_, fun hlow hhigh => ⟨_, exec_setEscort h, ?_⟩⟩, fun b h => ⟨fun hbad => ?_, fun hok => ?_⟩⟩
  · rw [exec_setEscort h, setEscort, if_pos hbad]
  · rw [setEscort_taken hlow hhigh]
    exact ⟨intervalSettled_interval, answer_reply, fun c l st => intervalSettled_credit (s := taken p s),
      fun c l st => intervalSettled_credit_young (s := taken p s), fun x sp l st ph =>
      intervalSettled_wait_young (s := taken p s), fun x sp l st ph => intervalSettled_ends (s := taken p s),
      fun x sp l st ph => intervalSettled_stays (s := taken p s)⟩
  · rw [exec_escortStatus h, if_pos hbad]
  · rw [exec_escortStatus h, if_neg (by omega)]
    rfl

end Sys2Proof.Machine
end

section
/-!
PROOFS. The slot records of a lane line, its timers, and SET_LINE (R142, R143, R155, R159).
-/
namespace Sys2Proof.Machine

variable {s t : State} {l m : Lane} {x y : Slot} {p : Port}

/-! ## Slot records -/

theorem LineUnit.slot_onSlot_self {u : LineUnit} {f : SlotRec → SlotRec} : (u.onSlot x f).slot x = f (u.slot x) := by
  cases x <;> rfl

theorem LineUnit.slot_onSlot_ne {u : LineUnit} {f : SlotRec → SlotRec} (h : y ≠ x) : (u.onSlot x f).slot y = u.slot y := by
  cases x <;> cases y <;> first | rfl | exact absurd rfl h

@[simp] theorem slot_onSlot_self {f : SlotRec → SlotRec} : ((onSlot l x f s).line l).slot x = f ((s.line l).slot x) := by
  rw [onSlot, State.line_onLine_self, LineUnit.slot_onSlot_self]

theorem slot_onSlot_ne {f : SlotRec → SlotRec} (h : y ≠ x) : ((onSlot l x f s).line l).slot y = (s.line l).slot y := by
  rw [onSlot, State.line_onLine_self, LineUnit.slot_onSlot_ne h]

/-- What of a lane line is not a slot's record nor a pending frame. -/
def LineUnit.sent (u : LineUnit) : Option Await × Nat × List (List LineMark) := (u.await, u.nextCycle, u.frames)

theorem sent_of_base {u v : LineUnit} (h : u.base = v.base) : u.sent = v.sent := by
  obtain ⟨-, hawait, hnext, hframes⟩ := LineUnit.fields_of_base h
  rw [LineUnit.sent, hawait, hnext, hframes]
  rfl

@[simp] theorem onSlot_sent {f : SlotRec → SlotRec} : ((onSlot l x f s).line l).sent = (s.line l).sent := by
  rw [onSlot, State.line_onLine_self]
  cases x <;> rfl

/-- The frames that wait to be sent. -/
def LineUnit.waits (u : LineUnit) : Option LeafCmd × Option Indication × Option Indication :=
  (u.pendingCmd, u.showOuter, u.showInner)

@[simp] theorem onSlot_waits {f : SlotRec → SlotRec} : ((onSlot l x f s).line l).waits = (s.line l).waits := by
  rw [onSlot, State.line_onLine_self]
  cases x <;> rfl

theorem countLineError_line : (countLineError l s).line m = s.line m :=
  (countLineError_keeps (b := .line m) (by simp)).mpr rfl

/-! ## Line errors (R76, R143) -/

theorem onLane_congr {f g : LaneUnit → LaneUnit} (h : f (s.lane l) = g (s.lane l)) : s.onLane l f = s.onLane l g := by
  simp only [State.onLane, h]

theorem countLineError_counted (h : (s.lane l).state.unaddressed = false) : countLineError l s = s.onLane l (fun u =>
    { u with counters := { u.counters with lineError := saturate u.counters.lineError } }) :=
  onLane_congr (by simp [LaneUnit.count, h])

theorem exec_stray (hrun : s.resetHeld = false) : exec (.stray l) s = .next
    (if !(s.lane l).state.unaddressed && (s.line l).await.isNone then countLineError l s else s) :=
  running_of_not_resetHeld hrun _

/-! ## Retries and lockouts (R142, R155) -/

theorem exec_retryExpiry (hrun : s.resetHeld = false) : exec (.retryExpiry l x) s = .next
    (if (s.slot l x).status.retries && (s.slot l x).retry.due s.time then onSlot l x SlotRec.retryRound s else s) :=
  running_of_not_resetHeld hrun _

theorem exec_lockoutExpiry (hrun : s.resetHeld = false) : exec (.lockoutExpiry l x) s = .next
    (if (s.slot l x).status == .jabber && (s.slot l x).lockout.due s.time then onSlot l x (fun _ => .fresh) s else s) :=
  running_of_not_resetHeld hrun _

theorem Timer.due_eq_false {c : Timer} {n : Nat} (h : ∀ due, c = .running due → n < due) : c.due n = false := by
  cases c with
  | running d => exact decide_eq_false (Nat.not_le.mpr (h d rfl))
  | stopped => rfl
  | paused d => rfl

theorem SlotRec.retryRound_fresh {r : SlotRec} : r.retryRound.round = true ∧ r.retryRound.tries = 0
    ∧ r.retryRound.probeSent = false ∧ r.retryRound.retry = .stopped := by
  unfold SlotRec.retryRound
  dsimp only
  split <;> exact ⟨rfl, rfl, rfl, rfl⟩

theorem SlotRec.retryRound_lost {r : SlotRec} (h : r.status = .lost) : r.retryRound.status = .lost := by
  simp [SlotRec.retryRound, h]

theorem SlotRec.retryRound_silent {r : SlotRec} (h : r.status = .silent) : r.retryRound.status = .querying := by
  simp [SlotRec.retryRound, h]

theorem SlotRec.retryRound_refused {r : SlotRec} {why : RefusalReason} (h : r.status = .refused) (hwhy : r.refusal = some why) :
    r.retryRound.status = .querying := by
  simp [SlotRec.retryRound, h, hwhy]

/-! ## SET_LINE (R159) -/

theorem exec_setLine {v : Option Byte} (h : Asked p (.setLine v) s) :
    exec (.setLine p) s = .next (setLine p v (taken p s)) := by
  obtain ⟨hrun, hreq⟩ := h
  refine (running_of_not_resetHeld hrun _).trans ?_
  simp only [hreq]
  rfl

/-- Settles O56: the timers by whether they run out, a stray by the line's state, the setting by its byte. -/
theorem lineTimersAndSetting : Obligations.LineTimersAndSetting := by
  intro s hrun
  refine ⟨fun l x due hretry hstatus hdue => ⟨_, exec_retryExpiry hrun, ?_⟩, fun l x hearly => ?_,
    fun l x due hlockout hstatus hdue => ⟨_, exec_lockoutExpiry hrun, ?_⟩, fun l x hearly => ?_,
    fun l hmasked hisolated hawait => ?_, fun l h => ?_, fun p v h => ⟨fun hv => ?_, fun hv => ?_, fun hv => ?_,
    fun b hv hb => ?_⟩⟩
  · have hretries : (s.slot l x).status.retries = true := by
      change ((s.line l).slot x).status.retries = true
      rcases hstatus with h | h | h <;> rw [h] <;> rfl
    have hrunout : (s.slot l x).retry.due s.time = true := by
      change ((s.line l).slot x).retry.due s.time = true
      rw [hretry]
      exact decide_eq_true hdue
    rw [if_pos (by simp [hretries, hrunout]), slot_onSlot_self]
    obtain ⟨hround, htries, hprobe, hstopped⟩ := SlotRec.retryRound_fresh (r := (s.line l).slot x)
    exact ⟨hround, htries, hprobe, hstopped, SlotRec.retryRound_lost, SlotRec.retryRound_silent,
      fun why => SlotRec.retryRound_refused⟩
  · have hnot : (s.slot l x).retry.due s.time = false := Timer.due_eq_false hearly
    rw [exec_retryExpiry hrun, if_neg (by simp [hnot])]
  · have hjabber : (s.slot l x).status = .jabber := hstatus
    have hrunout : (s.slot l x).lockout.due s.time = true := by
      change ((s.line l).slot x).lockout.due s.time = true
      rw [hlockout]
      exact decide_eq_true hdue
    rw [if_pos (by simp [hjabber, hrunout]), slot_onSlot_self]
    rfl
  · have hnot : (s.slot l x).lockout.due s.time = false := Timer.due_eq_false hearly
    rw [exec_lockoutExpiry hrun, if_neg (by simp [hnot])]
  · have haddressed : (s.lane l).state.unaddressed = false := unaddressed_eq_false_iff.mpr ⟨hmasked, hisolated⟩
    rw [exec_stray hrun, if_pos (by simp [haddressed, hawait]), countLineError_counted haddressed]
  · rw [exec_stray hrun, if_neg]
    rcases h with h | h | h <;> simp [h, LaneState.unaddressed]
  · rw [exec_setLine h, hv]
    rfl
  · rw [exec_setLine h, hv]
    rfl
  · rw [exec_setLine h, hv]
    rfl
  · have hbyte : newField yesNo (taken p s).bank.qualified (some b) = none := yesNo_large hb
    rw [exec_setLine h, hv]
    simp only [setLine, hbyte]

end Sys2Proof.Machine
end

section
/-!
PROOFS. The cycle of a lane line (R140, R144 to R146, R150): what its positions send, and what a collision does.
-/
namespace Sys2Proof.Machine

variable {s t : State} {l m : Lane} {x y : Slot} {k : SentKind} {coll : Collisions} {rd : Reader}

/-! ## A module lost or agreed leaves the line's records -/

theorem endAll_line {o : WinOutcome} : (endAll l o s).line m = s.line m := endWhere_line

theorem askBoth_line {i : Indication} : (askBoth l i s).line m = s.line m :=
  (askBoth_keeps (b := .line m) (by simp)).mpr rfl

@[simp] theorem leafLost_base : ((leafLost l s).line m).base = (s.line m).base := by
  unfold leafLost
  rw [endEvent_base]
  split
  all_goals first
    | rfl
    | rw [askBoth_line, changeState_line, endAll_line]

@[simp] theorem moduleLost_base : ((moduleLost l x s).line m).base = (s.line m).base := by
  cases x with
  | drive => exact leafLost_base
  | outer => exact endEvent_base.trans clearDisplay_base
  | inner => exact endEvent_base.trans clearDisplay_base

theorem notifyAll_line {c : Notice} : (notifyAll c s).line m = s.line m :=
  (notifyAll_keeps (b := .line m) (by simp)).mpr rfl

/-! ## Frames without an answer -/

/-- The record of a slot whose module is lost (R149). -/
def SlotRec.lose (due : Timer) (r : SlotRec) : SlotRec :=
  { r with status := .lost, profile := none, inferred := false, miss := 0, round := false, retry := due }

theorem loseSlot_base : ((loseSlot l x s).line m).base = ((onSlot l x (SlotRec.lose (oneSecond s)) s).line m).base := by
  unfold loseSlot
  dsimp only
  rw [moduleLost_base, notifyAll_line]
  rfl

theorem loseSlot_slot_self : ((loseSlot l x s).line l).slot x = ((s.line l).slot x).lose (oneSecond s) := by
  rw [(LineUnit.fields_of_base loseSlot_base).1, slot_onSlot_self]

theorem loseSlot_slot_ne (h : y ≠ x) : ((loseSlot l x s).line l).slot y = (s.line l).slot y := by
  rw [(LineUnit.fields_of_base loseSlot_base).1, slot_onSlot_ne h]

theorem loseSlot_sent : ((loseSlot l x s).line l).sent = (s.line l).sent := (sent_of_base loseSlot_base).trans onSlot_sent

/-- The record of a slot whose round ended without an answer (R155, R156). -/
def SlotRec.unheard (due : Timer) (r : SlotRec) : SlotRec :=
  { r with status := if r.status == .lost then .lost else .silent, round := false, prior := none, retry := due }

theorem noAnswer_line : (noAnswer l x s).line m = (onSlot l x (SlotRec.unheard (oneSecond s)) s).line m := by
  have hwas : onSlot l x (fun r => { r with
      status := if (s.slot l x).status == .lost then .lost else .silent, round := false, prior := none
      retry := oneSecond s }) s = onSlot l x (SlotRec.unheard (oneSecond s)) s := by
    unfold onSlot
    simp only [State.onLine]
    cases x <;> rfl
  unfold noAnswer
  dsimp only
  rw [hwas]
  split <;> rfl

theorem missPoll_slot_ne (h : y ≠ x) : ((missPoll l x s).line l).slot y = (s.line l).slot y := by
  unfold missPoll
  repeat' split
  · rfl
  · exact slot_onSlot_ne h
  · exact loseSlot_slot_ne h

theorem missPoll_sent : ((missPoll l x s).line l).sent = (s.line l).sent := by
  unfold missPoll
  repeat' split
  · rfl
  · exact onSlot_sent
  · exact loseSlot_sent

theorem unanswered_slot_ne (h : y ≠ x) : ((unanswered l x k s).line l).slot y = (s.line l).slot y := by
  cases k with
  | poll => exact missPoll_slot_ne h
  | query => rfl
  | probe =>
    change ((noAnswer l x s).line l).slot y = _
    rw [noAnswer_line, slot_onSlot_ne h]

theorem unanswered_sent : ((unanswered l x k s).line l).sent = (s.line l).sent := by
  cases k with
  | poll => exact missPoll_sent
  | query => rfl
  | probe =>
    change ((noAnswer l x s).line l).sent = _
    rw [noAnswer_line, onSlot_sent]

/-! ## The slots' positions (R144) -/

/-- A slot's frame sent, its reply awaited (R144). -/
def frameSent (l : Lane) (x : Slot) (k : SentKind) (s : State) : State :=
  (emit l (slotFrame x k) s).onLine l (fun u => { u with await := some ⟨x, k, s.time, false⟩ })

/-- A slot's record once its frame was sent, or collided (R150). -/
def frameCounted (l : Lane) (x : Slot) (k : SentKind) (s : State) : State := onSlot l x (fun r => r.sending k) s

/-- A slot's frame that collided (R140). -/
def frameCollided (l : Lane) (x : Slot) (k : SentKind) (s : State) : State :=
  unanswered l x k (countLineError l (frameCounted l x k s))

theorem runSlots_idle {xs : List Slot} (h : dueFrame (s.slot l x) = none) :
    runSlots l coll (x :: xs) s = runSlots l coll xs s := by
  simp only [runSlots, h]

theorem runSlots_due {xs : List Slot} (h : dueFrame (s.slot l x) = some k) : runSlots l coll (x :: xs) s
    = if collides coll (slotPosition x) then runSlots l coll xs (frameCollided l x k s)
      else frameSent l x k (frameCounted l x k s) := by
  simp only [runSlots, h]
  rfl

theorem collides_zero {n : Nat} : collides 0 n = false := BitVec.getLsbD_zero

/-- What each frame sent and each collision keeps, the positions keep. -/
theorem runSlots_kept {P : State → Prop} {xs : List Slot}
    (hsent : ∀ x ∈ xs, ∀ k t, P t → P (frameSent l x k (frameCounted l x k t)))
    (hcollided : ∀ x ∈ xs, ∀ k t, P t → P (frameCollided l x k t)) (h : P s) : P (runSlots l coll xs s) := by
  induction xs generalizing s with
  | nil => exact h
  | cons x rest ih =>
    have ih' {t : State} (ht : P t) : P (runSlots l coll rest t) :=
      ih (fun y hy => hsent y (List.mem_cons_of_mem _ hy)) (fun y hy => hcollided y (List.mem_cons_of_mem _ hy)) ht
    cases hdue : dueFrame (s.slot l x) with
    | none =>
      rw [runSlots_idle hdue]
      exact ih' h
    | some k =>
      rw [runSlots_due hdue]
      split
      · exact ih' (hcollided x (List.mem_cons_self ..) k s h)
      · exact hsent x (List.mem_cons_self ..) k s h

/-- Without collisions, what each frame sent keeps, the positions keep. -/
theorem runSlots_clear_kept {P : State → Prop} {xs : List Slot}
    (hsent : ∀ x ∈ xs, ∀ k t, P t → P (frameSent l x k (frameCounted l x k t))) (h : P s) : P (runSlots l 0 xs s) := by
  induction xs generalizing s with
  | nil => exact h
  | cons x rest ih =>
    cases hdue : dueFrame (s.slot l x) with
    | none =>
      rw [runSlots_idle hdue]
      exact ih (fun y hy => hsent y (List.mem_cons_of_mem _ hy)) h
    | some k =>
      rw [runSlots_due hdue, if_neg (by rw [collides_zero]; exact Bool.false_ne_true)]
      exact hsent x (List.mem_cons_self ..) k s h

theorem runSlots_none_due {xs : List Slot} (h : ∀ y ∈ xs, dueFrame (s.slot l y) = none) : runSlots l coll xs s = s := by
  induction xs with
  | nil => rfl
  | cons x rest ih =>
    rw [runSlots_idle (h x (List.mem_cons_self ..)), ih fun y hy => h y (List.mem_cons_of_mem _ hy)]

theorem runSlots_first_due {before after : List Slot} (h : ∀ y ∈ before, dueFrame (s.slot l y) = none)
    (hdue : dueFrame (s.slot l x) = some k) :
    runSlots l 0 (before ++ x :: after) s = frameSent l x k (frameCounted l x k s) := by
  induction before with
  | nil =>
    rw [List.nil_append, runSlots_due hdue, if_neg (by rw [collides_zero]; exact Bool.false_ne_true)]
  | cons z rest ih =>
    rw [List.cons_append, runSlots_idle (h z (List.mem_cons_self ..)), ih fun y hy => h y (List.mem_cons_of_mem _ hy)]

theorem frameSent_line : (frameSent l x k s).line l = { s.line l with
    frames := (s.line l).frames ++ [slotFrame x k], await := some ⟨x, k, s.time, false⟩ } := by
  rw [frameSent, emit, State.line_onLine_self, State.line_onLine_self]

/-! ## Every frame opens with BREAK and SYNC (R140) -/

/-- The line's next cycle is due then, and its frames open with BREAK and SYNC (R140, R144). -/
def CycleOpens (l : Lane) (due : Nat) (s : State) : Prop :=
  (s.line l).nextCycle = due ∧ ∀ f ∈ (s.line l).frames, ∃ rest, f = .brk :: .byte 0xAA :: rest

theorem CycleOpens.of_sent {due : Nat} (h : CycleOpens l due s) (hsent : (t.line l).sent = (s.line l).sent) :
    CycleOpens l due t := by
  obtain ⟨-, hnext, hframes⟩ : _ ∧ (t.line l).nextCycle = (s.line l).nextCycle ∧ (t.line l).frames = (s.line l).frames := by
    simpa only [LineUnit.sent, Prod.mk.injEq] using hsent
  rw [CycleOpens, hnext, hframes]
  exact h

theorem CycleOpens.emit {due n : Nat} {bytes : List Byte} (h : CycleOpens l due s) :
    CycleOpens l due (emit l (frame x n bytes) s) := by
  rw [CycleOpens, Machine.emit, State.line_onLine_self]
  refine ⟨h.1, fun f hf => ?_⟩
  rcases List.mem_append.mp hf with hf | hf
  · exact h.2 f hf
  · exact ⟨_, List.mem_singleton.mp hf⟩

theorem CycleOpens.frameSent {due : Nat} (h : CycleOpens l due s) : CycleOpens l due (frameSent l x k s) := by
  have hemitted : CycleOpens l due (Machine.emit l (slotFrame x k) s) := by cases k <;> exact h.emit
  rw [CycleOpens, Machine.frameSent, State.line_onLine_self]
  exact hemitted

theorem CycleOpens.sendCommand {due : Nat} (h : CycleOpens l due s) : CycleOpens l due (sendCommand l coll s) := by
  unfold Machine.sendCommand
  repeat' split
  · exact h
  · exact h.of_sent (by rw [countLineError_line])
  · exact h.emit
  · exact h

theorem CycleOpens.sendShow {due n : Nat} (h : CycleOpens l due s) : CycleOpens l due (sendShow l rd n coll s) := by
  unfold Machine.sendShow
  repeat' split
  · exact h
  · exact h.of_sent (by rw [countLineError_line])
  · rename_i i _ _ _
    have hemitted : CycleOpens l due (Machine.emit l (showFrame rd i) s) := h.emit
    refine hemitted.of_sent ?_
    rw [State.line_onLine_self]
    cases rd <;> rfl
  · exact h

theorem CycleOpens.runSlots {due : Nat} {xs : List Slot} (h : CycleOpens l due s) :
    CycleOpens l due (runSlots l coll xs s) := by
  refine runSlots_kept (fun x _ k t ht => (ht.of_sent onSlot_sent).frameSent) (fun x _ k t ht => ht.of_sent ?_) h
  rw [frameCollided, unanswered_sent, countLineError_line]
  exact onSlot_sent

/-! ## A cycle without collisions (R145, R146) -/

/-- The frames of position 1: the pending command of an agreed leaf drive (R145). -/
def commandFrames (l : Lane) (s : State) : List (List LineMark) :=
  match (s.line l).pendingCmd with
  | some c => if agreedAt s l .drive then [leafFrame c] else []
  | none => []

/-- The frames of positions 2 and 3: the pending SHOW of an agreed reader (R146). -/
def showFrames (l : Lane) (rd : Reader) (s : State) : List (List LineMark) :=
  match (s.line l).show rd with
  | some i => if agreedAt s l rd.slot then [showFrame rd i] else []
  | none => []

theorem sendCommand_line : (sendCommand l 0 s).line l
    = { s.line l with frames := (s.line l).frames ++ commandFrames l s } := by
  unfold sendCommand commandFrames
  cases hcmd : (s.line l).pendingCmd with
  | none => simp
  | some c =>
    dsimp only
    rw [collides_zero]
    cases agreedAt s l .drive with
    | false => simp
    | true => simp [emit]

theorem LineUnit.setShow_shown {u : LineUnit} {i : Option Indication} (h : u.show rd = i) : u.setShow rd i = u := by
  subst h
  cases rd <;> rfl

/-- A reader's pending SHOW, when its module is agreed, is sent (R146). -/
theorem sendShow_line {n : Nat} : (sendShow l rd n 0 s).line l
    = (if agreedAt s l rd.slot then
        { (s.line l).setShow rd none with frames := (s.line l).frames ++ showFrames l rd s } else s.line l) := by
  unfold sendShow showFrames
  cases hshow : (s.line l).show rd with
  | none =>
    simp [LineUnit.setShow_shown hshow]
  | some i =>
    dsimp only
    rw [collides_zero]
    cases agreedAt s l rd.slot with
    | false => simp
    | true => cases rd <;> simp [emit, LineUnit.setShow]

theorem showFrames_not_agreed (h : agreedAt s l rd.slot = false) : showFrames l rd s = [] := by
  unfold showFrames
  split
  · rw [h, if_neg Bool.false_ne_true]
  · rfl

theorem sendShow_frames {n : Nat} :
    ((sendShow l rd n 0 s).line l).frames = (s.line l).frames ++ showFrames l rd s := by
  rw [sendShow_line]
  split
  · rfl
  · rename_i h
    rw [showFrames_not_agreed (by simpa using h), List.append_nil]

/-- What of the line no SHOW that is sent changes. -/
def LineUnit.steady (u : LineUnit) : SlotRec × SlotRec × SlotRec × Option LeafCmd × Nat × Option Await :=
  (u.outer, u.inner, u.drive, u.pendingCmd, u.nextCycle, u.await)

theorem LineUnit.fields_of_steady {u v : LineUnit} (h : u.steady = v.steady) :
    (∀ x, u.slot x = v.slot x) ∧ u.pendingCmd = v.pendingCmd ∧ u.await = v.await := by
  simp only [LineUnit.steady, Prod.mk.injEq] at h
  obtain ⟨houter, hinner, hdrive, hpending, -, hawait⟩ := h
  refine ⟨fun x => ?_, hpending, hawait⟩
  cases x with
  | outer => exact houter
  | inner => exact hinner
  | drive => exact hdrive

theorem sendShow_steady {n : Nat} : ((sendShow l rd n 0 s).line l).steady = (s.line l).steady := by
  rw [sendShow_line]
  split
  · cases rd <;> rfl
  · rfl

theorem sendCommand_steady : ((sendCommand l 0 s).line l).steady = (s.line l).steady := by
  rw [sendCommand_line]
  rfl

theorem sendShow_sent {n : Nat} (h : agreedAt s l rd.slot = true) : ((sendShow l rd n 0 s).line l).show rd = none := by
  rw [sendShow_line, if_pos h]
  exact LineUnit.show_setShow

theorem sendShow_other {n : Nat} {rd' : Reader} (h : rd' ≠ rd) :
    ((sendShow l rd n 0 s).line l).show rd' = (s.line l).show rd' := by
  rw [sendShow_line]
  split
  · cases rd <;> cases rd' <;> first | rfl | exact absurd rfl h
  · rfl

theorem agreedAt_of_slot (h : (t.line l).slot x = (s.line l).slot x) : agreedAt t l x = agreedAt s l x := by
  rw [agreedAt, agreedAt, h]

theorem showFrames_congr (hshow : (t.line l).show rd = (s.line l).show rd)
    (hslot : (t.line l).slot rd.slot = (s.line l).slot rd.slot) : showFrames l rd t = showFrames l rd s := by
  rw [showFrames, showFrames, hshow, agreedAt_of_slot hslot]

/-- A cycle begun: the next one's time, and no frame sent yet (R144). -/
def cycleBegun (l : Lane) (s : State) : State :=
  s.onLine l (fun u => { u with nextCycle := s.time + Config.laneCycle, frames := [] })

/-- The first three positions of a cycle (R144 to R146). -/
def positionsSent (l : Lane) (coll : Collisions) (s : State) : State :=
  sendShow l .inner 3 coll (sendShow l .outer 2 coll (sendCommand l coll (cycleBegun l s)))

theorem startCycle_eq : startCycle l coll s = runSlots l coll [.drive, .outer, .inner] (positionsSent l coll s) := rfl

theorem cycleBegun_steady : (((cycleBegun l s).line l).slot x = (s.line l).slot x)
    ∧ ((cycleBegun l s).line l).pendingCmd = (s.line l).pendingCmd ∧ ((cycleBegun l s).line l).await = (s.line l).await
    ∧ ((cycleBegun l s).line l).show rd = (s.line l).show rd := by
  rw [cycleBegun, State.line_onLine_self]
  cases x <;> cases rd <;> exact ⟨rfl, rfl, rfl, rfl⟩

theorem cycleBegun_opens : CycleOpens l (s.time + 20) (cycleBegun l s) := by
  rw [CycleOpens, cycleBegun, State.line_onLine_self]
  exact ⟨rfl, nofun⟩

theorem startCycle_opens : CycleOpens l (s.time + 20) (startCycle l coll s) :=
  cycleBegun_opens.sendCommand.sendShow.sendShow.runSlots

theorem positionsSent_steady : ((positionsSent l 0 s).line l).slot x = (s.line l).slot x
    ∧ ((positionsSent l 0 s).line l).pendingCmd = (s.line l).pendingCmd
    ∧ ((positionsSent l 0 s).line l).await = (s.line l).await := by
  obtain ⟨hslot, hpending, hawait⟩ := LineUnit.fields_of_steady
    (sendShow_steady.trans (sendShow_steady.trans sendCommand_steady) :
      ((positionsSent l 0 s).line l).steady = ((cycleBegun l s).line l).steady)
  obtain ⟨hslot', hpending', hawait', -⟩ := cycleBegun_steady (s := s) (l := l) (x := x) (rd := .outer)
  exact ⟨(hslot x).trans hslot', hpending.trans hpending', hawait.trans hawait'⟩

theorem sendCommand_show : ((sendCommand l 0 s).line l).show rd = (s.line l).show rd := by
  rw [sendCommand_line]
  cases rd <;> rfl

theorem sendCommand_slot : ((sendCommand l 0 s).line l).slot x = (s.line l).slot x :=
  (LineUnit.fields_of_steady sendCommand_steady).1 x

theorem sendShow_slot {n : Nat} : ((sendShow l rd n 0 s).line l).slot x = (s.line l).slot x :=
  (LineUnit.fields_of_steady sendShow_steady).1 x

theorem positionsSent_frames : ((positionsSent l 0 s).line l).frames
    = commandFrames l s ++ showFrames l .outer s ++ showFrames l .inner s := by
  have hbegun (rd : Reader) := cycleBegun_steady (s := s) (l := l) (x := rd.slot) (rd := rd)
  have hcommand : commandFrames l (cycleBegun l s) = commandFrames l s := by
    obtain ⟨hslot, hpending, -⟩ := cycleBegun_steady (s := s) (l := l) (x := .drive) (rd := .outer)
    rw [commandFrames, commandFrames, hpending, agreedAt_of_slot hslot]
  have houter : showFrames l .outer (sendCommand l 0 (cycleBegun l s)) = showFrames l .outer s :=
    showFrames_congr (sendCommand_show.trans (hbegun .outer).2.2.2) (sendCommand_slot.trans (hbegun .outer).1)
  have hinner : showFrames l .inner (sendShow l .outer 2 0 (sendCommand l 0 (cycleBegun l s))) = showFrames l .inner s :=
    showFrames_congr ((sendShow_other (by decide)).trans (sendCommand_show.trans (hbegun .inner).2.2.2))
      (sendShow_slot.trans (sendCommand_slot.trans (hbegun .inner).1))
  have hempty : ((cycleBegun l s).line l).frames = [] := by
    rw [cycleBegun, State.line_onLine_self]
  rw [positionsSent, sendShow_frames, sendShow_frames, hinner, houter, sendCommand_line, hempty, hcommand, List.nil_append]

theorem positionsSent_outer (h : agreedAt s l .outer = true) : ((positionsSent l 0 s).line l).showOuter = none := by
  have hagreed : agreedAt (sendCommand l 0 (cycleBegun l s)) l .outer = true :=
    (agreedAt_of_slot (sendCommand_slot.trans (cycleBegun_steady (rd := .outer)).1)).trans h
  exact (sendShow_other (rd := .inner) (rd' := .outer) (by decide)).trans (sendShow_sent (rd := .outer) hagreed)

theorem positionsSent_inner (h : agreedAt s l .inner = true) : ((positionsSent l 0 s).line l).showInner = none :=
  sendShow_sent (rd := .inner) ((agreedAt_of_slot
    (sendShow_slot.trans (sendCommand_slot.trans (cycleBegun_steady (rd := .outer)).1))).trans h)

theorem positionsSent_time : (positionsSent l 0 s).time = s.time :=
  (sendShow_keeps (b := .time) (by simp)).mpr ((sendShow_keeps (b := .time) (by simp)).mpr
    ((sendCommand_keeps (b := .time) (by simp)).mpr rfl))

theorem frameCounted_waits : ((frameCounted l x k s).line l).waits = (s.line l).waits := onSlot_waits

theorem frameSent_waits : ((frameSent l x k s).line l).waits = (s.line l).waits := by
  rw [frameSent_line]
  rfl

theorem runSlots_waits {xs : List Slot} : ((runSlots l 0 xs s).line l).waits = (s.line l).waits :=
  runSlots_clear_kept (P := fun t => (t.line l).waits = (s.line l).waits)
    (fun _ _ _ _ h => (frameSent_waits.trans frameCounted_waits).trans h) rfl

/-- The first slot whose frame is due sends it after the frames of the first three positions, and awaits its reply. -/
theorem startCycle_due {before after : List Slot} (hall : [.drive, .outer, .inner] = before ++ x :: after)
    (hbefore : ∀ y ∈ before, dueFrame ((s.line l).slot y) = none) (hdue : dueFrame ((s.line l).slot x) = some k) :
    ((startCycle l 0 s).line l).frames
        = commandFrames l s ++ showFrames l .outer s ++ showFrames l .inner s ++ [slotFrame x k]
      ∧ ((startCycle l 0 s).line l).await = some ⟨x, k, s.time, false⟩ := by
  have hslot (y : Slot) : (positionsSent l 0 s).slot l y = (s.line l).slot y := positionsSent_steady.1
  have hsent : ((frameCounted l x k (positionsSent l 0 s)).line l).frames = ((positionsSent l 0 s).line l).frames :=
    congrArg (fun v => v.2.2) onSlot_sent
  have htime : (frameCounted l x k (positionsSent l 0 s)).time = s.time := positionsSent_time
  rw [startCycle_eq, hall, runSlots_first_due (fun y hy => by rw [hslot]; exact hbefore y hy) (by rw [hslot]; exact hdue),
    frameSent_line, hsent, positionsSent_frames, htime]
  exact ⟨rfl, rfl⟩

theorem exec_laneCycle (hrun : s.resetHeld = false) : exec (.laneCycle l coll) s = .next
    (if !(s.lane l).state.unaddressed && (s.line l).await.isNone && decide ((s.line l).nextCycle ≤ s.time) then
      startCycle l coll s else s) := running_of_not_resetHeld hrun _

/-- Settles O53: whether a cycle starts, then its positions: the first three, and the first slot whose frame is due. -/
theorem laneCycles : Obligations.LaneCycles := by
  intro l s hrun
  refine ⟨fun coll h => ?_, fun hmasked hisolated hawait hdue => ?_⟩
  · rw [exec_laneCycle hrun, if_neg]
    rcases h with h | h | h | h
    · simp [h, LaneState.unaddressed]
    · simp [h, LaneState.unaddressed]
    · simp [h]
    · simp [h]
  · have hstarts (coll : Collisions) : exec (.laneCycle l coll) s = .next (startCycle l coll s) := by
      rw [exec_laneCycle hrun, if_pos]
      simp [unaddressed_eq_false_iff.mpr ⟨hmasked, hisolated⟩, hawait, hdue]
    have hwaits : ((startCycle l 0 s).line l).waits = ((positionsSent l 0 s).line l).waits := runSlots_waits
    obtain ⟨hpending, hshowOuter, hshowInner⟩ : ((startCycle l 0 s).line l).pendingCmd = ((positionsSent l 0 s).line l).pendingCmd
      ∧ ((startCycle l 0 s).line l).showOuter = ((positionsSent l 0 s).line l).showOuter
      ∧ ((startCycle l 0 s).line l).showInner = ((positionsSent l 0 s).line l).showInner := by
      simpa only [LineUnit.waits, Prod.mk.injEq] using hwaits
    refine ⟨fun coll => ⟨_, hstarts coll, startCycle_opens⟩, _, hstarts 0, fun commands shown1 shown2 hcommands h1 h2 => ?_,
      fun _ => hpending.trans (positionsSent_steady (x := .drive)).2.1, fun h => hshowOuter.trans (positionsSent_outer h),
      fun h => hshowInner.trans (positionsSent_inner h)⟩
    obtain rfl : commands = commandFrames l s := hcommands
    obtain rfl : shown1 = showFrames l .outer s := h1
    obtain rfl : shown2 = showFrames l .inner s := h2
    refine ⟨fun k hk => startCycle_due (before := []) rfl nofun hk,
      fun k hdrive hk => startCycle_due (before := [.drive]) rfl ?_ hk,
      fun k hdrive houter hk => startCycle_due (before := [.drive, .outer]) rfl ?_ hk, fun hdrive houter hinner => ?_⟩
    · intro y hy
      obtain rfl := List.mem_singleton.mp hy
      exact hdrive
    · intro y hy
      simp only [List.mem_cons, List.not_mem_nil, or_false] at hy
      rcases hy with rfl | rfl
      · exact hdrive
      · exact houter
    · have hslot (y : Slot) : (positionsSent l 0 s).slot l y = (s.line l).slot y := positionsSent_steady.1
      have hnone : ∀ y ∈ [Slot.drive, .outer, .inner], dueFrame ((positionsSent l 0 s).slot l y) = none := by
        intro y _
        rw [hslot]
        cases y with
        | drive => exact hdrive
        | outer => exact houter
        | inner => exact hinner
      rw [startCycle_eq, runSlots_none_due hnone]
      exact ⟨positionsSent_frames, (positionsSent_steady (x := .drive)).2.2.trans hawait⟩

end Sys2Proof.Machine
end

section
/-!
PROOFS. Frames without a good reply (R141, R142, R149 to R151, R155).
-/
namespace Sys2Proof.Machine

variable {s t : State} {l m : Lane} {x y : Slot} {k : SentKind} {coll : Collisions} {a : Await} {f : State → State}

/-! ## After an awaited reply: the slots that follow (R144) -/

/-- The line no longer awaits a reply. -/
def awaitTaken (l : Lane) (s : State) : State := s.onLine l (fun u => { u with await := none })

theorem afterAwait_eq : afterAwait l coll a f s = runSlots l coll (slotFollowing a.slot) (f (awaitTaken l s)) := rfl

@[simp] theorem awaitTaken_slot : ((awaitTaken l s).line l).slot x = (s.line l).slot x := by
  rw [awaitTaken, State.line_onLine_self]
  cases x <;> rfl

theorem not_mem_slotFollowing : x ∉ slotFollowing x := by cases x <;> decide

theorem ne_drive_of_following (h : y ∈ slotFollowing x) : y ≠ .drive := by
  rintro rfl
  cases x <;> simp [slotFollowing] at h

theorem frameSent_slot : ((frameSent l x k s).line l).slot y = (s.line l).slot y := by
  rw [frameSent_line]
  cases y <;> rfl

theorem frameCollided_slot_ne (h : y ≠ x) : ((frameCollided l x k s).line l).slot y = (s.line l).slot y := by
  rw [frameCollided, unanswered_slot_ne h, countLineError_line, frameCounted, slot_onSlot_ne h]

/-- The positions leave the record of every slot not among them. -/
theorem runSlots_slot {xs : List Slot} (h : y ∉ xs) : ((runSlots l coll xs s).line l).slot y = (s.line l).slot y := by
  refine runSlots_kept (P := fun t => (t.line l).slot y = (s.line l).slot y) (fun x hx k t ht => ?_) (fun x hx k t ht => ?_) rfl
  · rw [frameSent_slot, frameCounted, slot_onSlot_ne (ne_of_mem_of_not_mem hx h).symm, ht]
  · rw [frameCollided_slot_ne (ne_of_mem_of_not_mem hx h).symm, ht]

theorem afterAwait_slot :
    ((afterAwait l coll a f s).line l).slot a.slot = ((f (awaitTaken l s)).line l).slot a.slot :=
  runSlots_slot not_mem_slotFollowing

/-- What of a lane its line's readers leave as it is: all that an event's end does not settle, but the line errors. -/
def LaneUnit.beyondLine (u : LaneUnit) : LaneState × Option Presentation × Nat :=
  (u.state, u.decision, u.counters.denial)

theorem beyondLine_of_rest {u v : LaneUnit} (h : u.rest = v.rest) : u.beyondLine = v.beyondLine := by
  obtain ⟨hstate, -, -, -, -, -, -, -, -, hcounters, hdecision, -⟩ := LaneUnit.fields_of_rest h
  rw [LaneUnit.beyondLine, hstate, hcounters, hdecision]
  rfl

theorem countLineError_beyondLine : ((countLineError l s).lane l).beyondLine = (s.lane l).beyondLine := by
  rw [countLineError, State.lane_onLane_self]
  unfold LaneUnit.count
  dsimp only [LaneUnit.beyondLine]
  split <;> rfl

theorem readerLost_rest {rd : Reader} : ((readerLost l rd s).lane m).rest = (s.lane m).rest :=
  endEvent_rest.trans clearDisplay_rest

theorem loseSlot_reader_rest (h : x ≠ .drive) : ((loseSlot l x s).lane l).rest = (s.lane l).rest := by
  unfold loseSlot
  dsimp only
  cases x with
  | drive => exact absurd rfl h
  | outer =>
    refine readerLost_rest.trans ?_
    rw [notifyAll_lane]
    rfl
  | inner =>
    refine readerLost_rest.trans ?_
    rw [notifyAll_lane]
    rfl

theorem unanswered_reader_rest (h : x ≠ .drive) : ((unanswered l x k s).lane l).rest = (s.lane l).rest := by
  cases k with
  | query => rfl
  | probe => exact congrArg LaneUnit.rest noAnswer_lane
  | poll =>
    change ((missPoll l x s).lane l).rest = _
    unfold missPoll
    repeat' split
    · rfl
    · rfl
    · exact loseSlot_reader_rest h

theorem loseSlot_reader_arbiter (h : x ≠ .drive) : (loseSlot l x s).arbiter = s.arbiter := by
  unfold loseSlot
  dsimp only
  cases x with
  | drive => exact absurd rfl h
  | outer => exact endEvent_arbiter.trans rfl
  | inner => exact endEvent_arbiter.trans rfl

theorem unanswered_reader_arbiter (h : x ≠ .drive) : (unanswered l x k s).arbiter = s.arbiter := by
  cases k with
  | query => rfl
  | probe => exact (noAnswer_keeps (b := .arbiter) (by simp)).mpr rfl
  | poll =>
    change (missPoll l x s).arbiter = _
    unfold missPoll
    repeat' split
    · rfl
    · rfl
    · exact loseSlot_reader_arbiter h

theorem afterAwait_beyondLine :
    ((afterAwait l coll a f s).lane l).beyondLine = ((f (awaitTaken l s)).lane l).beyondLine := by
  rw [afterAwait_eq]
  refine runSlots_kept (P := fun t => (t.lane l).beyondLine = ((f (awaitTaken l s)).lane l).beyondLine)
    (fun _ _ _ _ ht => ht) (fun x hx k t ht => ?_) rfl
  rw [frameCollided, beyondLine_of_rest (unanswered_reader_rest (ne_drive_of_following hx)), countLineError_beyondLine]
  exact ht

theorem afterAwait_arbiter : (afterAwait l coll a f s).arbiter = (f (awaitTaken l s)).arbiter := by
  rw [afterAwait_eq]
  exact runSlots_kept (P := fun t => t.arbiter = (f (awaitTaken l s)).arbiter) (fun _ _ _ _ ht => ht)
    (fun x hx k t ht => (unanswered_reader_arbiter (ne_drive_of_following hx)).trans ht) rfl

theorem afterAwait_state : ((afterAwait l coll a f s).lane l).state = ((f (awaitTaken l s)).lane l).state :=
  congrArg Prod.fst afterAwait_beyondLine

/-- Without collisions, what follows sends frames and no more. -/
theorem afterAwait_clear_lane : (afterAwait l 0 a f s).lane m = (f (awaitTaken l s)).lane m := by
  rw [afterAwait_eq]
  exact runSlots_clear_kept (P := fun t => t.lane m = (f (awaitTaken l s)).lane m) (fun _ _ _ _ ht => ht) rfl

/-! ## Polls, queries and probes without an answer (R149, R150, R155) -/

theorem missPoll_not_agreed (h : ((s.line l).slot x).status ≠ .agreed) : missPoll l x s = s := by
  have hstatus : (s.slot l x).status ≠ .agreed := h
  rw [missPoll, if_pos (by simpa using hstatus)]

theorem missPoll_counts (h : ((s.line l).slot x).status = .agreed) (hmiss : ((s.line l).slot x).miss < 2) :
    missPoll l x s = onSlot l x (fun r => { r with miss := r.miss + 1 }) s := by
  have hstatus : (s.slot l x).status = .agreed := h
  have hmiss' : (s.slot l x).miss < 2 := hmiss
  rw [missPoll, if_neg (by simp [hstatus]), if_pos (by omega)]

theorem missPoll_loses (h : ((s.line l).slot x).status = .agreed) (hmiss : 2 ≤ ((s.line l).slot x).miss) :
    missPoll l x s = loseSlot l x s := by
  have hstatus : (s.slot l x).status = .agreed := h
  have hmiss' : 2 ≤ (s.slot l x).miss := hmiss
  rw [missPoll, if_neg (by simp [hstatus]), if_neg (by omega)]

theorem leafLost_state (h : Attributed l s ∨ (s.lane l).state = .free) : ((leafLost l s).lane l).state = .fault := by
  have hfault : ((askBoth l .stop (changeState l .fault (endAll l .faulted s))).lane l).state = .fault := by
    rw [askBoth_state, changeState_state]
  rw [leafLost, endEvent_state]
  rcases h with (h | h | h) | h <;> rw [h] <;> exact hfault

theorem loseSlot_drive_state (h : Attributed l s ∨ (s.lane l).state = .free) :
    ((loseSlot l .drive s).lane l).state = .fault := by
  unfold loseSlot
  dsimp only
  refine leafLost_state ?_
  rw [Attributed, notifyAll_lane]
  exact h

theorem unlessVoid_void (h : a.void = true) : a.unlessVoid f s = s := if_pos h

theorem unlessVoid_live (h : a.void = false) : a.unlessVoid f s = f s := if_neg (by rw [h]; exact Bool.false_ne_true)

theorem unlessVoid_unanswered_core : ((a.unlessVoid (unanswered l x k) s).lane m).core = (s.lane m).core := by
  unfold Await.unlessVoid
  split
  · rfl
  · exact unanswered_core

/-! ## A wrong rate, and a reply without end (R142, R151) -/

/-- The record of a slot refused (R151). -/
def SlotRec.refuse (why : RefusalReason) (due : Timer) (r : SlotRec) : SlotRec :=
  { r with status := .refused, profile := none, inferred := false, refusal := some why, round := false, prior := none,
           retry := due }

theorem refuseSlot_slot {why : RefusalReason} :
    ((refuseSlot l x why s).line l).slot x = ((s.line l).slot x).refuse why (oneSecond s) := by
  have hslot : ((onSlot l x (SlotRec.refuse why (oneSecond s)) s).line l).slot x
      = ((s.line l).slot x).refuse why (oneSecond s) := slot_onSlot_self
  unfold refuseSlot
  dsimp only
  split
  · exact hslot
  · exact hslot

/-- The record of a slot whose module goes to JABBER (R142). -/
def SlotRec.jabbers (due : Timer) : SlotRec := { SlotRec.reset with status := .jabber, round := false, lockout := due }

/-- A slot in JABBER, counted, journaled and reported (R142). -/
def jabberMarked (l : Lane) (x : Slot) (s : State) : State :=
  notifyAll .lane (lineRecord l .moduleJabber x {} [] (countLineError l
    (onSlot l x (fun _ => SlotRec.jabbers (oneSecond s)) s)))

theorem jabberSlot_eq : jabberSlot l x s
    = if (s.slot l x).status == .agreed then moduleLost l x (jabberMarked l x s) else jabberMarked l x s := rfl

theorem jabberMarked_slot : ((jabberMarked l x s).line l).slot x = SlotRec.jabbers (oneSecond s) := by
  have hline : (jabberMarked l x s).line l = (onSlot l x (fun _ => SlotRec.jabbers (oneSecond s)) s).line l :=
    notifyAll_line.trans (countLineError_line (l := l))
  rw [hline, slot_onSlot_self]

theorem jabberSlot_slot : ((jabberSlot l x s).line l).slot x = SlotRec.jabbers (oneSecond s) := by
  rw [jabberSlot_eq]
  split
  · rw [(LineUnit.fields_of_base moduleLost_base).1, jabberMarked_slot]
  · exact jabberMarked_slot

theorem countLineError_lineError (h : (s.lane l).state.unaddressed = false) :
    ((countLineError l s).lane l).counters.lineError = saturate (s.lane l).counters.lineError := by
  rw [countLineError_counted h, State.lane_onLane_self]

theorem jabberMarked_lane : (jabberMarked l x s).lane m = (countLineError l s).lane m := by
  have hlane : (jabberMarked l x s).lane m
      = (countLineError l (onSlot l x (fun _ => SlotRec.jabbers (oneSecond s)) s)).lane m :=
    notifyAll_lane
  rw [hlane]
  rfl

theorem jabberSlot_lineError (h : (s.lane l).state.unaddressed = false) :
    ((jabberSlot l x s).lane l).counters.lineError = saturate (s.lane l).counters.lineError := by
  have hmarked : ((jabberMarked l x s).lane l).counters.lineError = saturate (s.lane l).counters.lineError := by
    rw [jabberMarked_lane, countLineError_lineError h]
  rw [jabberSlot_eq]
  split
  · rw [(LaneUnit.fields_of_core moduleLost_core).2.2.2.1, hmarked]
  · exact hmarked

/-! ## The judgements -/

theorem exec_noReply (hrun : s.resetHeld = false) (h : (s.line l).await = some a) : exec (.noReply l coll) s = .next
    (if a.since + 2 ≤ s.time then afterAwait l coll a (a.unlessVoid (unanswered l a.slot a.sent)) s else s) := by
  refine (running_of_not_resetHeld hrun _).trans ?_
  simp only [h]
  rfl

theorem exec_badReply_bad (hrun : s.resetHeld = false) (h : (s.line l).await = some a) {r : RawReply}
    (hjudged : judgeReply a.slot a.sent r = .bad) : exec (.badReply l r coll) s
      = .next (afterAwait l coll a (takeBad l a false) s) := by
  refine (running_of_not_resetHeld hrun _).trans ?_
  simp only [h, hjudged]

theorem exec_badReply_rate (hrun : s.resetHeld = false) (h : (s.line l).await = some a) {r : RawReply}
    (hjudged : judgeReply a.slot a.sent r = .rate) : exec (.badReply l r coll) s
      = .next (afterAwait l coll a (takeBad l a true) s) := by
  refine (running_of_not_resetHeld hrun _).trans ?_
  simp only [h, hjudged]

theorem exec_jabberReply (hrun : s.resetHeld = false) (h : (s.line l).await = some a) : exec (.jabberReply l coll) s
    = .next (afterAwait l coll a (jabberSlot l a.slot) s) := by
  refine (running_of_not_resetHeld hrun _).trans ?_
  simp only [h]

theorem takeBad_discarded {b : Bool} (h : b = false ∨ a.sent = .poll) :
    takeBad l a b s = a.unlessVoid (unanswered l a.slot a.sent) (countLineError l s) :=
  if_neg (by rcases h with h | h <;> simp [h])

theorem takeBad_rate (h : a.sent ≠ .poll) : takeBad l a true s = a.unlessVoid (refuseSlot l a.slot .rate) s :=
  if_pos (by simpa using h)

theorem exec_badReply_discarded (hrun : s.resetHeld = false) (h : (s.line l).await = some a) {r : RawReply}
    (hjudged : judgeReply a.slot a.sent r = .bad ∨ judgeReply a.slot a.sent r = .rate ∧ a.sent = .poll) :
    exec (.badReply l r coll) s = .next (afterAwait l coll a
      (fun t => a.unlessVoid (unanswered l a.slot a.sent) (countLineError l t)) s) := by
  rcases hjudged with hjudged | ⟨hjudged, hpoll⟩
  · rw [exec_badReply_bad hrun h hjudged]
    exact congrArg _ (congrArg (afterAwait l coll a · s) (funext fun t => takeBad_discarded (.inl rfl)))
  · rw [exec_badReply_rate hrun h hjudged]
    exact congrArg _ (congrArg (afterAwait l coll a · s) (funext fun t => takeBad_discarded (.inr hpoll)))

theorem unlessVoid_unanswered_same
    (h : a.void = true ∨ a.sent = .query ∨ a.sent = .poll ∧ ((s.line l).slot a.slot).status ≠ .agreed) :
    a.unlessVoid (unanswered l a.slot a.sent) s = s := by
  cases hvoid : a.void with
  | true => exact unlessVoid_void hvoid
  | false =>
    rw [unlessVoid_live hvoid]
    rcases h with h | h | ⟨h, hstatus⟩
    · rw [hvoid] at h
      contradiction
    · rw [h]
      rfl
    · rw [h]
      exact missPoll_not_agreed hstatus

theorem unlessVoid_unanswered_poll (hvoid : a.void = false) (hsent : a.sent = .poll) :
    a.unlessVoid (unanswered l a.slot a.sent) s = missPoll l a.slot s := by
  rw [unlessVoid_live hvoid, hsent]
  rfl

theorem unlessVoid_unanswered_probe (hvoid : a.void = false) (hsent : a.sent = .probe) :
    a.unlessVoid (unanswered l a.slot a.sent) s = noAnswer l a.slot s := by
  rw [unlessVoid_live hvoid, hsent]
  rfl

theorem awaitTaken_oneSecond : oneSecond (awaitTaken l s) = .running (s.time + 1000) := rfl

/-- Settles O54: each judgement's effect on the slot whose reply was awaited, which the slots that follow leave as it is. -/
theorem badReplies : Obligations.BadReplies := by
  intro l coll s hrun
  refine ⟨fun hnone => ⟨?_, fun r => ?_, ?_⟩, fun a hawait => ⟨fun hearly => ?_, fun hdue => ⟨_, exec_noReply hrun hawait,
    ?_⟩, fun r hjudged hsent => ⟨_, exec_badReply_rate hrun hawait hjudged, fun hvoid => ?_, fun hvoid => ?_⟩,
    fun r hjudged => ⟨_, exec_badReply_discarded hrun hawait hjudged, fun hvoid => ?_, fun hvoid hpoll hagreed hmiss => ?_,
    fun hcoll hmasked hisolated => ?_⟩, _, exec_jabberReply hrun hawait, ?_⟩⟩
  · refine (running_of_not_resetHeld hrun _).trans ?_
    simp only [hnone]
  · refine (running_of_not_resetHeld hrun _).trans ?_
    simp only [hnone]
  · refine (running_of_not_resetHeld hrun _).trans ?_
    simp only [hnone]
  · rw [exec_noReply hrun hawait, if_neg (Nat.not_le.mpr hearly)]
  · rw [if_pos hdue, afterAwait_slot, afterAwait_state]
    refine ⟨fun h => ?_, fun hvoid hpoll hagreed => ?_, fun hvoid hprobe => ?_⟩
    · rw [unlessVoid_unanswered_same (by simpa using h), awaitTaken_slot]
    · have hagreed' : (((awaitTaken l s).line l).slot a.slot).status = .agreed := by rw [awaitTaken_slot, hagreed]
      rw [unlessVoid_unanswered_poll hvoid hpoll]
      refine ⟨fun hmiss => ?_, fun hmiss => ?_⟩
      · rw [missPoll_counts hagreed' (by rw [awaitTaken_slot]; exact hmiss), slot_onSlot_self, awaitTaken_slot]
      · rw [missPoll_loses hagreed' (by rw [awaitTaken_slot]; exact hmiss), loseSlot_slot_self]
        refine ⟨rfl, rfl, rfl, fun hdrive h => ?_⟩
        rw [hdrive]
        exact loseSlot_drive_state h
    · rw [unlessVoid_unanswered_probe hvoid hprobe, noAnswer_line, slot_onSlot_self, awaitTaken_slot]
      refine ⟨?_, rfl⟩
      simp [SlotRec.unheard]
  · rw [afterAwait_slot, takeBad_rate hsent, unlessVoid_void hvoid, awaitTaken_slot]
  · rw [afterAwait_slot, takeBad_rate hsent, unlessVoid_live hvoid, refuseSlot_slot]
    exact ⟨rfl, rfl, rfl⟩
  · rw [afterAwait_slot, unlessVoid_void hvoid, countLineError_line, awaitTaken_slot]
  · have hslot : ((countLineError l (awaitTaken l s)).line l).slot a.slot = (s.line l).slot a.slot := by
      rw [countLineError_line, awaitTaken_slot]
    rw [afterAwait_slot, unlessVoid_unanswered_poll hvoid hpoll,
      missPoll_counts (by rw [hslot]; exact hagreed) (by rw [hslot]; exact hmiss), slot_onSlot_self, hslot]
  · rw [hcoll, afterAwait_clear_lane, (LaneUnit.fields_of_core unlessVoid_unanswered_core).2.2.2.1]
    exact countLineError_lineError (s := awaitTaken l s) (unaddressed_eq_false_iff.mpr ⟨hmasked, hisolated⟩)
  · rw [afterAwait_slot, jabberSlot_slot]
    refine ⟨rfl, rfl, rfl, fun hcoll hmasked hisolated => ?_⟩
    rw [hcoll, afterAwait_clear_lane]
    exact jabberSlot_lineError (s := awaitTaken l s) (unaddressed_eq_false_iff.mpr ⟨hmasked, hisolated⟩)

end Sys2Proof.Machine
end

section
/-!
PROOFS. Good replies (R145, R147, R148, R151 to R154).
-/
namespace Sys2Proof.Machine

variable {s t : State} {l m : Lane} {x y : Slot} {coll : Collisions} {a : Await} {f : State → State} {g : GoodReply}
  {r : RawReply} {kind : GoodReply → Bool} {c : Cred} {md : Medium}

/-! ## A reply of the row's kind -/

theorem goodReply_taken (hawait : (s.line l).await = some a) (hvoid : a.void = false)
    (hjudged : judgeReply a.slot a.sent r = .good g) (hkind : kind g = true) :
    goodReply l r coll kind s = afterAwait l coll a (takeGood l a g) s := by
  have hlive : a.unlessVoid (takeGood l a g) = takeGood l a g := funext fun _ => unlessVoid_live hvoid
  simp only [goodReply, hawait, hjudged, hkind, if_true, hlive]

theorem afterAwait_sense : (afterAwait l coll a f s).mail.sense = (f (awaitTaken l s)).mail.sense :=
  (runSlots_keeps (b := .sense) (by simp [anyReply])).mpr rfl

/-- A good reply to a frame of a round that a RESTART_LANE ended (R158). -/
theorem goodReply_void (hawait : (s.line l).await = some a) (hvoid : a.void = true) :
    ((goodReply l r coll kind s).line l).slot a.slot = (s.line l).slot a.slot
      ∧ (goodReply l r coll kind s).mail.sense = s.mail.sense
      ∧ (goodReply l r coll kind s).arbiter.second = s.arbiter.second := by
  have hended (f : State → State) : ((afterAwait l coll a (a.unlessVoid f) s).line l).slot a.slot = (s.line l).slot a.slot
      ∧ (afterAwait l coll a (a.unlessVoid f) s).mail.sense = s.mail.sense
      ∧ (afterAwait l coll a (a.unlessVoid f) s).arbiter.second = s.arbiter.second := by
    rw [afterAwait_slot, afterAwait_sense, afterAwait_arbiter, unlessVoid_void hvoid, awaitTaken_slot]
    exact ⟨rfl, rfl, rfl⟩
  unfold goodReply
  rw [hawait]
  dsimp only
  split
  · split
    · exact hended _
    · exact ⟨rfl, rfl, rfl⟩
  · exact ⟨rfl, rfl, rfl⟩

theorem exec_idleReply (hrun : s.resetHeld = false) (hawait : (s.line l).await = some a) (hvoid : a.void = false)
    (hjudged : judgeReply a.slot a.sent r = .good .idle) :
    exec (.idleReply l r coll) s = .next (afterAwait l coll a (takeGood l a .idle) s) := by
  refine (running_of_not_resetHeld hrun _).trans ?_
  rw [goodReply_taken hawait hvoid hjudged rfl]

theorem exec_presentationReply (hrun : s.resetHeld = false) (hawait : (s.line l).await = some a) (hvoid : a.void = false)
    (hjudged : judgeReply a.slot a.sent r = .good (.presentation c md)) :
    exec (.presentationReply l r coll) s = .next (afterAwait l coll a (takeGood l a (.presentation c md)) s) := by
  refine (running_of_not_resetHeld hrun _).trans ?_
  rw [goodReply_taken hawait hvoid hjudged rfl]

theorem exec_senseReply (hrun : s.resetHeld = false) (hawait : (s.line l).await = some a) (hvoid : a.void = false)
    {evs : List SenseEvent} {pos : LeafPosition} {z : Zones} (hjudged : judgeReply a.slot a.sent r = .good (.sense evs pos z)) :
    exec (.senseReply l r coll) s = .next (afterAwait l coll a (takeGood l a (.sense evs pos z)) s) := by
  refine (running_of_not_resetHeld hrun _).trans ?_
  rw [goodReply_taken hawait hvoid hjudged rfl]

theorem exec_profileReply (hrun : s.resetHeld = false) (hawait : (s.line l).await = some a) (hvoid : a.void = false)
    (hkind : (∃ v, g = .leafProfile v) ∨ ∃ m d, g = .readerProfile m d) (hjudged : judgeReply a.slot a.sent r = .good g) :
    exec (.profileReply l r coll) s = .next (afterAwait l coll a (takeGood l a g) s) := by
  refine (running_of_not_resetHeld hrun _).trans ?_
  rw [goodReply_taken hawait hvoid hjudged (by rcases hkind with ⟨v, rfl⟩ | ⟨m, d, rfl⟩ <;> rfl)]

/-! ## A good reply to a poll (R147, R148) -/

/-- The slot's misses counted anew (R149). -/
def missesCleared (l : Lane) (x : Slot) (s : State) : State := onSlot l x (fun r => { r with miss := 0 }) s

theorem takeGood_poll (h : a.sent = .poll) : takeGood l a g s = takePolled l a.slot g (missesCleared l a.slot s) := by
  simp only [takeGood, h]
  rfl

theorem missesCleared_slot : ((missesCleared l x (awaitTaken l s)).line l).slot x = { (s.line l).slot x with miss := 0 } := by
  rw [missesCleared, slot_onSlot_self, awaitTaken_slot]

theorem missesCleared_agreedAt : agreedAt (missesCleared l x (awaitTaken l s)) l y = agreedAt s l y := by
  by_cases h : y = x
  · subst h
    rw [agreedAt, missesCleared_slot]
    rfl
  · rw [agreedAt, missesCleared, slot_onSlot_ne h, awaitTaken_slot]
    rfl

theorem missesCleared_agreedMedia : agreedMedia (missesCleared l x (awaitTaken l s)) l x = agreedMedia s l x := by
  have hprofile : ((missesCleared l x (awaitTaken l s)).slot l x).profile = (s.slot l x).profile := by
    change (((missesCleared l x (awaitTaken l s)).line l).slot x).profile = _
    rw [missesCleared_slot]
    rfl
  rw [agreedMedia, agreedMedia, hprofile]

theorem giveVerdict_line {d : Direction} {v : Verdict} (h : verdictEffect l d v = id) :
    (giveVerdict l d c v s).line m = s.line m := by
  unfold giveVerdict
  rw [h]
  dsimp only
  have hdenied : (if v.denies = true then countDenial l (id (verdictRecord l d c v s))
      else id (verdictRecord l d c v s)).line m = s.line m := by
    split
    · exact (countDenial_keeps (b := .line m) (by simp)).mpr rfl
    · rfl
  split
  · exact hdenied
  · exact hdenied

theorem startDecision_base {p : Presentation} : ((startDecision l p s).line l).base = (s.line l).base := by
  unfold startDecision
  repeat' split
  · rw [countLineError_line]
  · rw [endEvent_base, giveVerdict_line]
    unfold laneRefusal
    split <;> rfl
  · rw [endEvent_base, giveVerdict_line rfl]
  · rfl

theorem takePresentation_slot : ((takePresentation l x c md s).line l).slot y = (s.line l).slot y := by
  unfold takePresentation
  repeat' split
  · rw [countLineError_line]
  · have hline : ((countDenial l (ask l (slotDirection x).reader .stop s)).line l) = s.line l :=
      (countDenial_keeps (b := .line l) (by simp)).mpr rfl
    rw [endEvent_slot, hline]
  · exact (LineUnit.fields_of_base startDecision_base).1 y

theorem valid_of_ne (hzero : c ≠ 0) (hall : c ≠ 0xFFFFFFFF) : Cred.valid c = true :=
  Bool.and_eq_true_iff.mpr ⟨bne_iff_ne.mpr hzero, bne_iff_ne.mpr hall⟩

/-- A presentation by a medium that the agreed profile does not hold (R147). -/
theorem takePresentation_denied (hvalid : Cred.valid c = true) (hmedium : hasMedium (agreedMedia s l x) md = false) :
    ((takePresentation l x c md s).lane l).decision = (s.lane l).decision
      ∧ ((s.lane l).state.unaddressed = false →
        ((takePresentation l x c md s).lane l).counters.denial = saturate (s.lane l).counters.denial) := by
  rw [takePresentation, if_neg (by simp [hvalid]), if_pos (by simp [hmedium])]
  have hasked : ((ask l (slotDirection x).reader .stop s).lane l).rest = (s.lane l).rest := ask_rest
  obtain ⟨hstate, -, -, -, -, -, -, -, -, hcounters, hdecision, -⟩ := LaneUnit.fields_of_rest hasked
  obtain ⟨-, -, -, -, -, -, -, -, -, hcounters', hdecision', -⟩ := LaneUnit.fields_of_rest (endEvent_rest (l := l) (m := l)
    (s := countDenial l (ask l (slotDirection x).reader .stop s)))
  rw [hcounters', hdecision', countDenial, State.lane_onLane_self]
  refine ⟨hdecision, fun haddressed => ?_⟩
  simp only [LaneUnit.count, hstate, haddressed, hcounters, Bool.false_eq_true, if_false]

/-- A presentation that starts a decision (R28, R30, R31). -/
theorem takePresentation_starts (hvalid : Cred.valid c = true) (hmedium : hasMedium (agreedMedia s l x) md = true)
    (hfree : (s.lane l).decision = none) (haccepts : laneAccepts s l (slotDirection x) = true) (hroom : hasRoom s l = true) :
    takePresentation l x c md s = claimSecond (.lookup l)
      (s.onLane l (fun u => { u with decision := some ⟨slotDirection x, c, md⟩ })) := by
  rw [takePresentation, if_neg (by simp [hvalid]), if_neg (by simp [hmedium]), startDecision, if_neg (by simp [hfree]),
    if_neg (by simp [haccepts]), if_neg (by simp [hroom])]

theorem missesCleared_laneAccepts {d : Direction} :
    laneAccepts (missesCleared l x (awaitTaken l s)) l d = laneAccepts s l d := by
  rw [laneAccepts, missesCleared_agreedAt]
  rfl

theorem LaneUnit.fields_of_beyondLine {u v : LaneUnit} (h : u.beyondLine = v.beyondLine) :
    u.state = v.state ∧ u.decision = v.decision ∧ u.counters.denial = v.counters.denial := by
  simpa only [LaneUnit.beyondLine, Prod.mk.injEq] using h

/-! ## A SENSE (R145, R148) -/

variable {evs : List SenseEvent} {pos : LeafPosition} {z : Zones}

theorem takeSense_sense : (takeSense l evs pos z s).mail.sense
    = s.mail.sense ++ (evs.map (fun e => (l, .event e)) ++ [(l, .update pos z)]) := by
  simp [takeSense, State.onLine, State.onMail, Function.comp_def]

theorem takeSense_line : (takeSense l evs pos z s).line l
    = { s.line l with pendingCmd := (s.line l).pendingCmd.filter (fun c => !confirms pos c) } := by
  rw [takeSense, State.line_onLine_self]
  rfl

theorem takeSense_slot : ((takeSense l evs pos z s).line l).slot y = (s.line l).slot y := by
  rw [takeSense_line]
  cases y <;> rfl

theorem takeSense_pending : ((takeSense l evs pos z s).line l).pendingCmd
    = (s.line l).pendingCmd.filter (fun c => !confirms pos c) := by rw [takeSense_line]

theorem missesCleared_pending : ((missesCleared l x (awaitTaken l s)).line l).pendingCmd = (s.line l).pendingCmd := by
  have hcleared : ((missesCleared l x (awaitTaken l s)).line l).pendingCmd = ((awaitTaken l s).line l).pendingCmd :=
    congrArg Prod.fst onSlot_waits
  rw [hcleared, awaitTaken, State.line_onLine_self]

theorem afterAwait_pending :
    ((afterAwait l 0 a f s).line l).pendingCmd = ((f (awaitTaken l s)).line l).pendingCmd :=
  congrArg Prod.fst (runSlots_waits (s := f (awaitTaken l s)))

/-! ## Results of a query round (R151 to R154) -/

theorem backToReady_line : (backToReady l s).line m = s.line m := (backToReady_keeps (b := .line m) (by simp)).mpr rfl

theorem moduleAgreed_base : ((moduleAgreed l s).line m).base = (s.line m).base := by
  unfold moduleAgreed
  dsimp only
  rw [endEvent_base]
  repeat' split
  · rw [askBoth_line, changeState_line]
  · rw [backToReady_line]
  · rfl

/-- The record of a slot whose profile is agreed (R152 to R154). -/
def SlotRec.agree (p : Profile) (inferred : Bool) (r : SlotRec) : SlotRec :=
  { r with status := .agreed, profile := some p, inferred := inferred, refusal := none, miss := 0, round := false,
           prior := none, retry := .stopped }

theorem agreeSlot_slot {p : Profile} {b : Bool} : ((agreeSlot l x p b s).line l).slot x = ((s.line l).slot x).agree p b := by
  have hslot : ((onSlot l x (SlotRec.agree p b) s).line l).slot x = ((s.line l).slot x).agree p b := slot_onSlot_self
  rw [agreeSlot, (LineUnit.fields_of_base moduleAgreed_base).1]
  exact hslot

theorem takeGood_leaf (h : a.sent = .query) {v : LeafSet} :
    takeGood l a (.leafProfile v) s = settleRound l a.slot false (weighLeaf s l v) s := by
  simp only [takeGood, h]

theorem takeGood_reader (h : a.sent = .query) {q : MediaSet} {d : Bool} :
    takeGood l a (.readerProfile q d) s = settleRound l a.slot false (weighReader s l q d) s := by
  simp only [takeGood, h]

/-- An idle reply to the probe of a legacy module (R154). -/
theorem takeGood_probe_idle (h : a.sent = .probe) (hqualified : s.bank.qualified = false) :
    takeGood l a .idle s = agreeSlot l a.slot (inferredProfile a.slot) true s := by
  simp only [takeGood, h, inferSlot, hqualified, Bool.false_eq_true, if_false, settleRound, takePolled, ite_self]

theorem weighLeaf_some {v : LeafSet} {q : LeafProfile} (h : bestLeaf (v &&& (s.lane l).settings.allowedLeaf) = some q) :
    weighLeaf s l v = some (.leaf q) := by rw [weighLeaf, h, Option.map_some]

theorem weighLeaf_none {v : LeafSet} (h : bestLeaf (v &&& (s.lane l).settings.allowedLeaf) = none) :
    weighLeaf s l v = none := by rw [weighLeaf, h, Option.map_none]

theorem weighReader_some {q : MediaSet} {d : Bool} (h : q &&& (s.lane l).settings.allowedMedia ≠ 0) :
    weighReader s l q d = some (.reader (q &&& (s.lane l).settings.allowedMedia) d) := if_neg h

theorem weighReader_none {q : MediaSet} {d : Bool} (h : q &&& (s.lane l).settings.allowedMedia = 0) :
    weighReader s l q d = none := if_pos h

/-- Settles O55: each good reply by the frame it answers, the slots that follow leaving its slot and its effect. -/
theorem goodReplies : Obligations.GoodReplies := by
  intro l r coll a s hrun hawait
  refine ⟨fun hvoid c hc => ?_, fun hvoid => ⟨fun hjudged hpoll => ⟨_, exec_idleReply hrun hawait hvoid hjudged, ?_⟩,
    fun hjudged hprobe hqualified => ⟨_, exec_idleReply hrun hawait hvoid hjudged, ?_⟩, fun evs pos z hjudged hpoll =>
    ⟨_, exec_senseReply hrun hawait hvoid hjudged, ?_⟩, fun c md hjudged hpoll =>
    ⟨_, exec_presentationReply hrun hawait hvoid hjudged, ?_⟩, fun v hjudged hquery =>
    ⟨_, exec_profileReply hrun hawait hvoid (.inl ⟨v, rfl⟩) hjudged, ?_⟩, fun q d hjudged hquery =>
    ⟨_, exec_profileReply hrun hawait hvoid (.inr ⟨q, d, rfl⟩) hjudged, ?_⟩⟩⟩
  · simp only [List.mem_cons, List.not_mem_nil, or_false] at hc
    rcases hc with rfl | rfl | rfl | rfl <;>
      exact ⟨_, running_of_not_resetHeld hrun _, goodReply_void hawait hvoid⟩
  · rw [afterAwait_slot, takeGood_poll hpoll]
    exact missesCleared_slot
  · rw [afterAwait_slot, takeGood_probe_idle (s := awaitTaken l s) hprobe hqualified, agreeSlot_slot]
    refine ⟨rfl, rfl, congrArg some ?_⟩
    cases a.slot <;> rfl
  · rw [afterAwait_slot, afterAwait_sense, takeGood_poll hpoll]
    refine ⟨takeSense_sense, takeSense_slot.trans missesCleared_slot, fun hcoll => ?_⟩
    rw [hcoll, afterAwait_pending, takeGood_poll hpoll]
    exact takeSense_pending.trans (by rw [missesCleared_pending])
  · rw [afterAwait_slot, afterAwait_arbiter, takeGood_poll hpoll]
    refine ⟨takePresentation_slot.trans missesCleared_slot, fun hzero hall hmedium => ?_,
      fun hzero hall hmedium hfree haccepts hroom => ?_⟩
    · obtain ⟨hdecision, hdenial⟩ := takePresentation_denied (s := missesCleared l a.slot (awaitTaken l s)) (l := l)
        (valid_of_ne hzero hall) (by rw [missesCleared_agreedMedia]; exact hmedium)
      have hbeyond := afterAwait_beyondLine (s := s) (l := l) (coll := coll) (a := a) (f := takeGood l a (.presentation c md))
      rw [takeGood_poll hpoll] at hbeyond
      obtain ⟨-, hdecision', hdenial'⟩ := LaneUnit.fields_of_beyondLine hbeyond
      refine ⟨hdecision'.trans hdecision, fun hmasked hisolated => hdenial'.trans (hdenial ?_)⟩
      exact unaddressed_eq_false_iff.mpr ⟨hmasked, hisolated⟩
    · have hbeyond := afterAwait_beyondLine (s := s) (l := l) (coll := coll) (a := a) (f := takeGood l a (.presentation c md))
      have hstarts : takePolled l a.slot (.presentation c md) (missesCleared l a.slot (awaitTaken l s)) = _ :=
        takePresentation_starts (valid_of_ne hzero hall) (by rw [missesCleared_agreedMedia]; exact hmedium)
          hfree (missesCleared_laneAccepts.trans haccepts) hroom
      rw [takeGood_poll hpoll, hstarts] at hbeyond
      rw [hstarts]
      obtain ⟨-, hdecision, -⟩ := LaneUnit.fields_of_beyondLine hbeyond
      refine ⟨hdecision.trans ?_, rfl⟩
      rw [claimSecond_lane, State.lane_onLane_self]
  · rw [afterAwait_slot, takeGood_leaf hquery]
    refine ⟨fun p hp => ?_, fun hnone => ?_⟩
    · rw [weighLeaf_some (s := awaitTaken l s) hp, settleRound, agreeSlot_slot]
      exact ⟨rfl, rfl, rfl⟩
    · rw [weighLeaf_none (s := awaitTaken l s) hnone, settleRound, refuseSlot_slot]
      exact ⟨rfl, rfl⟩
  · rw [afterAwait_slot, takeGood_reader hquery]
    refine ⟨fun hany => ?_, fun hnone => ?_⟩
    · rw [weighReader_some (s := awaitTaken l s) hany, settleRound, agreeSlot_slot]
      exact ⟨rfl, rfl⟩
    · rw [weighReader_none (s := awaitTaken l s) hnone, settleRound, refuseSlot_slot]
      exact ⟨rfl, rfl⟩

end Sys2Proof.Machine
end
